-- ==== Sys2Proof/Word.lean ====
section
/-! DEFINITION. The word types of the block: spec/00_scope.md R9 (every value is an unsigned integer of a stated width). -/

namespace Sys2Proof

/-- One byte of host memory (R50). -/
abbrev Byte := BitVec 8

/-- A `u64`: every register of the block, and every 64-bit operand (R9, R21). -/
abbrev Word := BitVec 64

/-- A `u128`: only the product of the mum unit has this width (R10, R100). -/
abbrev DWord := BitVec 128

end Sys2Proof
end

