-- ==== Sys2Proof/Config.lean ====
section
/-! DEFINITION. The implementation parameters of spec/00_scope.md R7, as plain data, and the free values: what
spec/93_implementation_defined.md leaves open with the treatment "any value" or "any interleaving". -/

namespace Sys2Proof

/-- The contents of the secret-table LUT, four 64-bit entries (R7 `SECRET`, R39, R104). -/
structure SecretTable where
  s0 : Word
  s1 : Word
  s2 : Word
  s3 : Word
deriving DecidableEq, Repr

/-- A range of host byte addresses, `base .. base + size - 1`. -/
structure Region where
  base : Nat
  size : Nat
deriving DecidableEq, Repr

/-- The parameters a model takes (R7). They are fixed for one machine: no step changes them.
`bases` lists `BASE` of each instance, so `N_INST` is its length. `memErr` lists the addresses whose reads the platform
answers with an error, so `MemOk(a)` says that `a` lies in none of them (R7, R64; log entry 2). `nonIdempotent` lists the addresses
whose reads have side effects (R58, I2; log entry 9). -/
structure Config where
  secret        : SecretTable
  addrW         : Nat
  bases         : List Nat
  memErr        : List Region
  nonIdempotent : List Region
deriving DecidableEq, Repr

/-- The default secret table of R7. -/
def SecretTable.default : SecretTable where
  s0 := 0x2d358dccaa6c78a5
  s1 := 0x8bb84b93962eacc9
  s2 := 0x4b33a62ed433d4a3
  s3 := 0x4d5a2da51de1aa47

/-- The parameters of `State.reset`: the defaults of R7 (`SECRET`, `ADDR_W = 64`, `N_INST = 1`). R7 gives `BASE` and `MemOk` no
default ("platform"): the base below, and `MemOk` true everywhere, are DESIGN CHOICE (log entry 3; 95_test_vectors.md takes the
same `MemOk`). -/
def Config.default : Config where
  secret        := SecretTable.default
  addrW         := 64
  bases         := [0xffffffffffff0000]
  memErr        := []
  nonIdempotent := []

/-- The n-th free 64-bit value: what an unspecified register (R178, R220, I4) or the `RESULT` of a raced operation (R58, R66, I1, I2,
I17) holds. It has no body, so no proof can rest on its value (log entries 5, 7, 8, 9). -/
opaque Config.freeWord : Nat → Word

/-- The n-th free choice of the next agent, used only where the schedule names none (R15, I15; log entry 4). -/
opaque Config.freeChoice : Nat → Nat

end Sys2Proof
end

