-- ==== Sys2Proof/Syntax.lean ====
section
/-! DEFINITION. The instructions: one constructor per row of spec/opcode_table.json. The block has two encoded forms (spec/30_encoding.md
R70): the command word, and the host access (its descriptor, and for a write the 64-bit data). A constructor of a write carries the
data written. The instance an access addresses is no part of its encoding (R75): it is `State.target`. -/

namespace Sys2Proof

/-- The rows of spec/opcode_table.json. -/
inductive Instr where
  /-- command word 0x0 (R162) -/
  | nop
  /-- command word 0x1 (R163, R164) -/
  | digest
  /-- any other command word `w` (R165, R72) -/
  | illegal (w : Word)
  /-- read `CMD` (R151) -/
  | rdCmd
  /-- write `CMD`: a command, its word the data written (R161) -/
  | wrCmd (v : Word)
  /-- read `STATUS` (R152) -/
  | rdStatus
  /-- write `STATUS`, ignored (R166) -/
  | wrStatus (v : Word)
  /-- read `SEED` (R153) -/
  | rdSeed
  /-- write `SEED` (R158) -/
  | wrSeed (v : Word)
  /-- read `SRC` (R154) -/
  | rdSrc
  /-- write `SRC` (R159) -/
  | wrSrc (v : Word)
  /-- read `LEN` (R155) -/
  | rdLen
  /-- write `LEN` (R160) -/
  | wrLen (v : Word)
  /-- read `RESULT` (R156) -/
  | rdResult
  /-- write `RESULT`, ignored (R166) -/
  | wrResult (v : Word)
  /-- read reserved offset 0x30 (R157) -/
  | rdReserved30
  /-- write reserved offset 0x30, ignored (R166) -/
  | wrReserved30 (v : Word)
  /-- read reserved offset 0x38 (R157) -/
  | rdReserved38
  /-- write reserved offset 0x38, ignored (R166) -/
  | wrReserved38 (v : Word)
  /-- read reserved offset 0x40 (R157) -/
  | rdReserved40
  /-- write reserved offset 0x40, ignored (R166) -/
  | wrReserved40 (v : Word)
  /-- read reserved offset 0x48 (R157) -/
  | rdReserved48
  /-- write reserved offset 0x48, ignored (R166) -/
  | wrReserved48 (v : Word)
  /-- read reserved offset 0x50 (R157) -/
  | rdReserved50
  /-- write reserved offset 0x50, ignored (R166) -/
  | wrReserved50 (v : Word)
  /-- read reserved offset 0x58 (R157) -/
  | rdReserved58
  /-- write reserved offset 0x58, ignored (R166) -/
  | wrReserved58 (v : Word)
  /-- read reserved offset 0x60 (R157) -/
  | rdReserved60
  /-- write reserved offset 0x60, ignored (R166) -/
  | wrReserved60 (v : Word)
  /-- read reserved offset 0x68 (R157) -/
  | rdReserved68
  /-- write reserved offset 0x68, ignored (R166) -/
  | wrReserved68 (v : Word)
  /-- read reserved offset 0x70 (R157) -/
  | rdReserved70
  /-- write reserved offset 0x70, ignored (R166) -/
  | wrReserved70 (v : Word)
  /-- read reserved offset 0x78 (R157) -/
  | rdReserved78
  /-- write reserved offset 0x78, ignored (R166) -/
  | wrReserved78 (v : Word)
  /-- read reserved offset 0x80 (R157) -/
  | rdReserved80
  /-- write reserved offset 0x80, ignored (R166) -/
  | wrReserved80 (v : Word)
  /-- read reserved offset 0x88 (R157) -/
  | rdReserved88
  /-- write reserved offset 0x88, ignored (R166) -/
  | wrReserved88 (v : Word)
  /-- read reserved offset 0x90 (R157) -/
  | rdReserved90
  /-- write reserved offset 0x90, ignored (R166) -/
  | wrReserved90 (v : Word)
  /-- read reserved offset 0x98 (R157) -/
  | rdReserved98
  /-- write reserved offset 0x98, ignored (R166) -/
  | wrReserved98 (v : Word)
  /-- read reserved offset 0xA0 (R157) -/
  | rdReservedA0
  /-- write reserved offset 0xA0, ignored (R166) -/
  | wrReservedA0 (v : Word)
  /-- read reserved offset 0xA8 (R157) -/
  | rdReservedA8
  /-- write reserved offset 0xA8, ignored (R166) -/
  | wrReservedA8 (v : Word)
  /-- read reserved offset 0xB0 (R157) -/
  | rdReservedB0
  /-- write reserved offset 0xB0, ignored (R166) -/
  | wrReservedB0 (v : Word)
  /-- read reserved offset 0xB8 (R157) -/
  | rdReservedB8
  /-- write reserved offset 0xB8, ignored (R166) -/
  | wrReservedB8 (v : Word)
  /-- read reserved offset 0xC0 (R157) -/
  | rdReservedC0
  /-- write reserved offset 0xC0, ignored (R166) -/
  | wrReservedC0 (v : Word)
  /-- read reserved offset 0xC8 (R157) -/
  | rdReservedC8
  /-- write reserved offset 0xC8, ignored (R166) -/
  | wrReservedC8 (v : Word)
  /-- read reserved offset 0xD0 (R157) -/
  | rdReservedD0
  /-- write reserved offset 0xD0, ignored (R166) -/
  | wrReservedD0 (v : Word)
  /-- read reserved offset 0xD8 (R157) -/
  | rdReservedD8
  /-- write reserved offset 0xD8, ignored (R166) -/
  | wrReservedD8 (v : Word)
  /-- read reserved offset 0xE0 (R157) -/
  | rdReservedE0
  /-- write reserved offset 0xE0, ignored (R166) -/
  | wrReservedE0 (v : Word)
  /-- read reserved offset 0xE8 (R157) -/
  | rdReservedE8
  /-- write reserved offset 0xE8, ignored (R166) -/
  | wrReservedE8 (v : Word)
  /-- read reserved offset 0xF0 (R157) -/
  | rdReservedF0
  /-- write reserved offset 0xF0, ignored (R166) -/
  | wrReservedF0 (v : Word)
  /-- read reserved offset 0xF8 (R157) -/
  | rdReservedF8
  /-- write reserved offset 0xF8, ignored (R166) -/
  | wrReservedF8 (v : Word)
  /-- a descriptor with `off[2:0] != 0`: not admitted (R75, R60). `data` is a write's data, 0 for a read. -/
  | unadmittedAccess (write : Bool) (off : BitVec 8) (data : Word)
deriving DecidableEq, Repr

end Sys2Proof
end

