-- ==== Sys2Proof/WellFormed.lean ====
section
/-! DEFINITION. Which instructions and which parameters are well formed. -/

namespace Sys2Proof

/-- An instruction some encoded form stands for: ILLEGAL is a word other than 0x0 and 0x1 (R71); an access that is not admitted has
`off[2:0] != 0` (R75), and a read carries no data. -/
def Instr.wf : Instr → Bool
  | .illegal w => w != 0 && w != 1
  | .unadmittedAccess write off data => off.toNat % 8 != 0 && (write || data == 0)
  | _ => true

/-- The parameters R7 admits: `ADDR_W` from 1 to 64, at least one instance, each `BASE` a multiple of 0x100, and no two instances at one
`BASE` (R210: each has its own window). -/
def Config.wf (c : Config) : Bool :=
  decide (1 ≤ c.addrW) && decide (c.addrW ≤ 64) && !c.bases.isEmpty && c.bases.all (fun b => b % 0x100 == 0)
    && decide c.bases.Nodup

end Sys2Proof
end

