-- ==== Sys2Proof/Decode.lean ====
section
/-! DEFINITION. Decoding and encoding: spec/30_encoding.md R70 to R77 and spec/opcode_table.json. `decode` is total on the two encoded
forms (R70); `decodeBytes` is total on any bytes and rejects by name what is neither form; the encoder after it is written from the
same tables. -/

namespace Sys2Proof

/-- The two encoded forms of R70: a command word (R71), or a host access: its 9-bit descriptor `D = (W << 8) | off` (R75) with the 64-bit
data of a write (0 for a read). -/
inductive Encoded where
  | command (w : Word)
  | access (d : BitVec 9) (data : Word)
deriving DecidableEq, Repr

/-- Why a string of bytes is neither encoded form. -/
inductive DecodeReject where
  /-- neither 2, 8 nor 10 bytes (R77: no other length exists) -/
  | badLength
  /-- a descriptor with a bit above bit 8 set (R75: it has 9 bits) -/
  | badDescriptor
  /-- a write's descriptor (`W = 1`) without its data -/
  | writeWithoutData
  /-- a read's descriptor (`W = 0`) with data -/
  | readWithData
deriving DecidableEq, Repr

/-- `n` bytes of `v`, the least significant first (R61, R9). -/
def leBytes : Nat → Nat → List Byte
  | 0, _ => []
  | n + 1, v => BitVec.ofNat 8 v :: leBytes n (v / 256)

/-- The unsigned value of bytes given least significant first. -/
def leNat : List Byte → Nat
  | [] => 0
  | b :: bs => b.toNat + 256 * leNat bs

/-- The command word (R71): decoding is total, every 64-bit value is one of the three. -/
def decodeCommand (w : Word) : Instr :=
  if w = 0x0000000000000000 then .nop
  else if w = 0x0000000000000001 then .digest
  else .illegal w

/-- The admitted read descriptors, by `off` (R75). -/
def decodeRead (off : Nat) : Option Instr :=
  match off with
  | 0x00 => some .rdCmd
  | 0x08 => some .rdStatus
  | 0x10 => some .rdSeed
  | 0x18 => some .rdSrc
  | 0x20 => some .rdLen
  | 0x28 => some .rdResult
  | 0x30 => some .rdReserved30
  | 0x38 => some .rdReserved38
  | 0x40 => some .rdReserved40
  | 0x48 => some .rdReserved48
  | 0x50 => some .rdReserved50
  | 0x58 => some .rdReserved58
  | 0x60 => some .rdReserved60
  | 0x68 => some .rdReserved68
  | 0x70 => some .rdReserved70
  | 0x78 => some .rdReserved78
  | 0x80 => some .rdReserved80
  | 0x88 => some .rdReserved88
  | 0x90 => some .rdReserved90
  | 0x98 => some .rdReserved98
  | 0xA0 => some .rdReservedA0
  | 0xA8 => some .rdReservedA8
  | 0xB0 => some .rdReservedB0
  | 0xB8 => some .rdReservedB8
  | 0xC0 => some .rdReservedC0
  | 0xC8 => some .rdReservedC8
  | 0xD0 => some .rdReservedD0
  | 0xD8 => some .rdReservedD8
  | 0xE0 => some .rdReservedE0
  | 0xE8 => some .rdReservedE8
  | 0xF0 => some .rdReservedF0
  | 0xF8 => some .rdReservedF8
  | _ => none

/-- The admitted write descriptors, by `off` (R75); `v` is the data written. -/
def decodeWrite (off : Nat) (v : Word) : Option Instr :=
  match off with
  | 0x00 => some (.wrCmd v)
  | 0x08 => some (.wrStatus v)
  | 0x10 => some (.wrSeed v)
  | 0x18 => some (.wrSrc v)
  | 0x20 => some (.wrLen v)
  | 0x28 => some (.wrResult v)
  | 0x30 => some (.wrReserved30 v)
  | 0x38 => some (.wrReserved38 v)
  | 0x40 => some (.wrReserved40 v)
  | 0x48 => some (.wrReserved48 v)
  | 0x50 => some (.wrReserved50 v)
  | 0x58 => some (.wrReserved58 v)
  | 0x60 => some (.wrReserved60 v)
  | 0x68 => some (.wrReserved68 v)
  | 0x70 => some (.wrReserved70 v)
  | 0x78 => some (.wrReserved78 v)
  | 0x80 => some (.wrReserved80 v)
  | 0x88 => some (.wrReserved88 v)
  | 0x90 => some (.wrReserved90 v)
  | 0x98 => some (.wrReserved98 v)
  | 0xA0 => some (.wrReservedA0 v)
  | 0xA8 => some (.wrReservedA8 v)
  | 0xB0 => some (.wrReservedB0 v)
  | 0xB8 => some (.wrReservedB8 v)
  | 0xC0 => some (.wrReservedC0 v)
  | 0xC8 => some (.wrReservedC8 v)
  | 0xD0 => some (.wrReservedD0 v)
  | 0xD8 => some (.wrReservedD8 v)
  | 0xE0 => some (.wrReservedE0 v)
  | 0xE8 => some (.wrReservedE8 v)
  | 0xF0 => some (.wrReservedF0 v)
  | 0xF8 => some (.wrReservedF8 v)
  | _ => none

/-- `W` of a descriptor (R75). -/
def descriptorWrite (d : BitVec 9) : Bool := d.getLsbD 8

/-- `off` of a descriptor (R75). -/
def descriptorOff (d : BitVec 9) : BitVec 8 := d.setWidth 8

/-- `D = (W << 8) | off` (R75). -/
def descriptor (write : Bool) (off : BitVec 8) : BitVec 9 :=
  (BitVec.ofBool write).setWidth 9 <<< 8 ||| off.setWidth 9

/-- A host access (R75): the admitted descriptors are the tables above, every other descriptor is not admitted. A read has no data. -/
def decodeAccess (d : BitVec 9) (data : Word) : Instr :=
  if descriptorWrite d then
    (decodeWrite (descriptorOff d).toNat data).getD (.unadmittedAccess true (descriptorOff d) data)
  else
    (decodeRead (descriptorOff d).toNat).getD (.unadmittedAccess false (descriptorOff d) 0)

/-- Decoding of the two forms of R70; total. -/
def decode : Encoded → Instr
  | .command w => decodeCommand w
  | .access d data => decodeAccess d data

/-- Decoding of bytes, total. The three layouts are the model's own packing of the forms of R70 (log entry 11): 8 bytes are a command
word; 2 bytes are a read's descriptor; 10 bytes are a write's descriptor and its data; each value little-endian. -/
def decodeBytes (bs : List Byte) : Except DecodeReject Instr :=
  if bs.length = 8 then .ok (decode (.command (BitVec.ofNat 64 (leNat bs))))
  else if bs.length = 2 then
    if 0x200 ≤ leNat bs then .error .badDescriptor
    else if 0x100 ≤ leNat bs then .error .writeWithoutData
    else .ok (decode (.access (BitVec.ofNat 9 (leNat bs)) 0))
  else if bs.length = 10 then
    if 0x200 ≤ leNat (bs.take 2) then .error .badDescriptor
    else if leNat (bs.take 2) < 0x100 then .error .readWithData
    else .ok (decode (.access (BitVec.ofNat 9 (leNat (bs.take 2))) (BitVec.ofNat 64 (leNat (bs.drop 2)))))
  else .error .badLength

/-- The words of an instruction, from R71, R73 and R75. -/
def encode : Instr → Encoded
  | .nop => .command 0x0000000000000000
  | .digest => .command 0x0000000000000001
  | .illegal w => .command w
  | .rdCmd => .access 0x000 0
  | .wrCmd v => .access 0x100 v
  | .rdStatus => .access 0x008 0
  | .wrStatus v => .access 0x108 v
  | .rdSeed => .access 0x010 0
  | .wrSeed v => .access 0x110 v
  | .rdSrc => .access 0x018 0
  | .wrSrc v => .access 0x118 v
  | .rdLen => .access 0x020 0
  | .wrLen v => .access 0x120 v
  | .rdResult => .access 0x028 0
  | .wrResult v => .access 0x128 v
  | .rdReserved30 => .access 0x030 0
  | .wrReserved30 v => .access 0x130 v
  | .rdReserved38 => .access 0x038 0
  | .wrReserved38 v => .access 0x138 v
  | .rdReserved40 => .access 0x040 0
  | .wrReserved40 v => .access 0x140 v
  | .rdReserved48 => .access 0x048 0
  | .wrReserved48 v => .access 0x148 v
  | .rdReserved50 => .access 0x050 0
  | .wrReserved50 v => .access 0x150 v
  | .rdReserved58 => .access 0x058 0
  | .wrReserved58 v => .access 0x158 v
  | .rdReserved60 => .access 0x060 0
  | .wrReserved60 v => .access 0x160 v
  | .rdReserved68 => .access 0x068 0
  | .wrReserved68 v => .access 0x168 v
  | .rdReserved70 => .access 0x070 0
  | .wrReserved70 v => .access 0x170 v
  | .rdReserved78 => .access 0x078 0
  | .wrReserved78 v => .access 0x178 v
  | .rdReserved80 => .access 0x080 0
  | .wrReserved80 v => .access 0x180 v
  | .rdReserved88 => .access 0x088 0
  | .wrReserved88 v => .access 0x188 v
  | .rdReserved90 => .access 0x090 0
  | .wrReserved90 v => .access 0x190 v
  | .rdReserved98 => .access 0x098 0
  | .wrReserved98 v => .access 0x198 v
  | .rdReservedA0 => .access 0x0A0 0
  | .wrReservedA0 v => .access 0x1A0 v
  | .rdReservedA8 => .access 0x0A8 0
  | .wrReservedA8 v => .access 0x1A8 v
  | .rdReservedB0 => .access 0x0B0 0
  | .wrReservedB0 v => .access 0x1B0 v
  | .rdReservedB8 => .access 0x0B8 0
  | .wrReservedB8 v => .access 0x1B8 v
  | .rdReservedC0 => .access 0x0C0 0
  | .wrReservedC0 v => .access 0x1C0 v
  | .rdReservedC8 => .access 0x0C8 0
  | .wrReservedC8 v => .access 0x1C8 v
  | .rdReservedD0 => .access 0x0D0 0
  | .wrReservedD0 v => .access 0x1D0 v
  | .rdReservedD8 => .access 0x0D8 0
  | .wrReservedD8 v => .access 0x1D8 v
  | .rdReservedE0 => .access 0x0E0 0
  | .wrReservedE0 v => .access 0x1E0 v
  | .rdReservedE8 => .access 0x0E8 0
  | .wrReservedE8 v => .access 0x1E8 v
  | .rdReservedF0 => .access 0x0F0 0
  | .wrReservedF0 v => .access 0x1F0 v
  | .rdReservedF8 => .access 0x0F8 0
  | .wrReservedF8 v => .access 0x1F8 v
  | .unadmittedAccess write off data => .access (descriptor write off) data

/-- The bytes of an encoded form, in the layouts of `decodeBytes`. -/
def Encoded.bytes : Encoded → List Byte
  | .command w => leBytes 8 w.toNat
  | .access d data => if descriptorWrite d then leBytes 2 d.toNat ++ leBytes 8 data.toNat else leBytes 2 d.toNat

/-- The bytes of an instruction. -/
def encodeBytes (i : Instr) : List Byte := (encode i).bytes

/-- The bytes of an opcode-table word: `nbits` says which form the row has (a descriptor of 9 bits, a command word of 64), and every bit
above `nbits` is 0, so a write's data is 0 where `w` does not give it. -/
def tableBytes (nbits w : Nat) : Option (List Byte) :=
  if 32 < nbits ∧ nbits ≤ 64 then
    if w < 2 ^ 64 then some (leBytes 8 w) else none
  else if w < 2 ^ 16 ∧ w / 256 % 2 = 0 then some (leBytes 2 w)
  else if w < 2 ^ 80 then some (leBytes 10 w)
  else none

/-- The instruction the decoder reads from a word numbered as spec/opcode_table.json numbers it. -/
def decodeTableWord (nbits w : Nat) : Option Instr :=
  match tableBytes nbits w with
  | none => none
  | some bs =>
    match decodeBytes bs with
    | .ok i => some i
    | .error _ => none

end Sys2Proof
end

