-- ==== Sys2Proof/Machine/State.lean ====
section
/-! DEFINITION. The state of the machine as plain data: the registers of every instance (spec/10_state.md), host memory
(spec/20_memory.md), the host agents with their pending lines (spec/30_encoding.md R84), and the order in which agents move
(spec/00_scope.md R15). INVENTORY.md lists each field with its rule. -/

namespace Sys2Proof.Machine

/-- The sequencer's states (R35). `idle` means no operation is in progress; any other value names the next engine step. -/
inductive Phase where
  | idle | init | short | bulk | fold16 | tail | fin1 | fin2
deriving DecidableEq, Repr

/-- One instance: its window registers (R21), the fields of `STATUS` (R23), and its internal registers (R34).
`raced` is the model's own: `RESULT` of the operation in progress is any value (R58, R66, I1, I2, I17; log entries 7, 8, 9). -/
structure Engine where
  busy    : Bool
  done    : Bool
  err     : Bool
  errCode : BitVec 8
  seed    : Word
  src     : Word
  len     : Word
  result  : Word
  phase   : Phase
  lSeed   : Word
  lSrc    : Word
  lLen    : Word
  acc0    : Word
  acc1    : Word
  acc2    : Word
  fa      : Word
  fb      : Word
  off     : Word
  rem     : Word
  raced   : Bool
deriving DecidableEq, Repr

/-- Host memory (R50): address and byte, addresses strictly rising, and no entry equal to what an unlisted address reads as, which is 0
(95_test_vectors.md section 11; log entry 6). -/
abbrev Memory := List Host.Cell

/-- The canonical form of `Memory`. -/
abbrev Memory.wf (m : Memory) : Prop := m.Pairwise (fun c d => c.1 < d.1) ∧ ∀ c ∈ m, c.2 ≠ 0

/-- A condition of a `poll` line on the value read (R84): equality under a mask, closed under not, and, or. -/
inductive Cond where
  | maskEq (mask want : Word)
  | not (c : Cond)
  | and (c d : Cond)
  | or (c d : Cond)
deriving DecidableEq, Repr

/-- One transfer on the platform bus: address, width in bytes, direction, and a write's data (R60, R61). -/
structure BusAccess where
  addr  : Nat
  size  : Nat
  write : Bool
  data  : Word
deriving DecidableEq, Repr

/-- One action of a host agent (R84), as the platform sees it. `Machine/Notation.lean` builds them from the host sequence notation. -/
inductive HostLine where
  /-- one register access; a read's value is bound to the name given (`wr`, `rd`) -/
  | bus (a : BusAccess) (bind : Option Nat)
  /-- a command word given to an instance: the write of that word to its `CMD` (R70(1), R71) -/
  | command (inst : Nat) (w : Word)
  /-- repeat the read of the register at `addr` until `c` holds of the value read (`poll`) -/
  | poll (addr : Nat) (c : Cond)
  /-- a write of ordinary memory (`memwr`) -/
  | memwr (addr : Nat) (bytes : List Byte)
  /-- make this agent's prior memory writes visible to the engines (`fence`) -/
  | fence
deriving DecidableEq, Repr

/-- A host agent (R14, R211): its pending lines, oldest first; the names its reads have bound, newest first; and the ranges it wrote
since its last `fence` (R65(b), R232). -/
structure HostAgent where
  prog     : List HostLine
  bound    : List (Nat × Word)
  unfenced : List Region
deriving DecidableEq, Repr

/-- Who moves (R15): a host agent, an engine, or the platform asserting an instance's reset (R220). -/
inductive Agent where
  | host (j : Nat)
  | engine (k : Nat)
  | reset (k : Nat)
deriving DecidableEq, Repr

/-- The machine. `cfg` holds the parameters, which no step changes. `sched` names the agents that move next; when it is empty, an
enabled agent moves (log entry 4). `target` is the instance the access on the bus addresses, `rdata` the value the last register read
returned, and `free` counts the free values drawn: these three are the model's own. -/
structure State where
  cfg     : Config
  engines : List Engine
  mem     : Memory
  hosts   : List HostAgent
  sched   : List Agent
  target  : Nat
  rdata   : Word
  free    : Nat
deriving DecidableEq, Repr

/-- Why the machine stops with a fault. Both are safe: the machine stops where a platform would go on. -/
inductive Fault where
  /-- an access reaches no instance: raised by every meaning when `target` names none. No step of a state that meets `State.Inv` raises
  it. -/
  | noInstance
  /-- a `memwr` line reaches past `2^ADDR_W - 1`, the last address of host memory (R50): raised by `hostMemwr`; nothing is written -/
  | noSuchAddress
deriving DecidableEq, Repr

/-- Why the model refuses. All are safe: nothing is claimed of what the platform does then. -/
inductive Refusal where
  /-- an instruction without a meaning; no arm of `exec` raises it in this model -/
  | notModelled (mnemonic : String)
  /-- a window access of another width or at an offset that is not a multiple of 8 (R60, R75, I3): raised by
  `execUnadmittedAccess` and `busAccess` -/
  | unadmittedAccess
  /-- a bus access to an address in no instance's window: not an access of this block (R60, R63): raised by `busAccess` and `hostPoll` -/
  | outsideWindows
  /-- a `memwr` line that reaches into a window: R84 gives `memwr` to ordinary memory only, and the window takes no such access (R60):
  raised by `hostMemwr` -/
  | memwrToWindow
deriving DecidableEq, Repr

/-- An instance after reset (R220). The internal registers of R34, which reset leaves unspecified, are 0: DESIGN CHOICE (log entry 1). -/
def Engine.reset : Engine where
  busy := false
  done := false
  err := false
  errCode := 0
  seed := 0
  src := 0
  len := 0
  result := 0
  phase := .idle
  lSeed := 0
  lSrc := 0
  lLen := 0
  acc0 := 0
  acc1 := 0
  acc2 := 0
  fa := 0
  fb := 0
  off := 0
  rem := 0
  raced := false

/-- A host agent with nothing to do. -/
def HostAgent.reset : HostAgent where
  prog := []
  bound := []
  unfenced := []

/-- The machine right after reset (R220, R222): every instance as `Engine.reset`, nothing listed in memory, one host agent with no
lines, and an empty schedule. The values of `target`, `rdata` and `free`, which are no state of the spec, are 0: DESIGN CHOICE (log
entry 1). -/
def State.reset : State where
  cfg := Config.default
  engines := [Engine.reset]
  mem := []
  hosts := [HostAgent.reset]
  sched := []
  target := 0
  rdata := 0
  free := 0

end Sys2Proof.Machine
end

