-- ==== Sys2Proof/Machine/Flags.lean ====
section
/-! DEFINITION. `STATUS` and its fields: spec/10_state.md R23 to R28 and the error codes of spec/60_exceptions.md R200. -/

namespace Sys2Proof.Machine

/-- The causes of an error (R200). -/
inductive ErrorCause where
  | illegalCmd | busError | range
deriving DecidableEq, Repr

/-- The error codes (R200). -/
def ErrorCause.code : ErrorCause → BitVec 8
  | .illegalCmd => 0x01
  | .busError => 0x02
  | .range => 0x03

/-- A flag as a 64-bit value. -/
def flagWord (b : Bool) : Word := (BitVec.ofBool b).setWidth 64

/-- The value of `STATUS`: `zext_64(ERRCODE) << 8 | ERR << 2 | DONE << 1 | BUSY`; every other bit reads 0 (R152, R23, R28). -/
def Engine.statusWord (e : Engine) : Word :=
  e.errCode.setWidth 64 <<< 8 ||| flagWord e.err <<< 2 ||| flagWord e.done <<< 1 ||| flagWord e.busy

/-- The flags when an operation starts (R163). -/
def Engine.flagsStarted (e : Engine) : Engine := { e with busy := true, done := false, err := false, errCode := 0 }

/-- The flags when an operation completes (R177). -/
def Engine.flagsCompleted (e : Engine) : Engine := { e with busy := false, done := true, err := false, errCode := 0 }

/-- The flags when a command completes with an error (R202). -/
def Engine.flagsFailed (c : ErrorCause) (e : Engine) : Engine :=
  { e with busy := false, done := true, err := true, errCode := c.code }

end Sys2Proof.Machine
end

