-- ==== Sys2Proof/Machine/Operands.lean ====
section
/-! DEFINITION. Operands: address ranges, the platform's answers, the window map, and the operands of DIGEST (spec/20_memory.md,
spec/30_encoding.md R74, spec/42_commands.md R161 to R164). -/

namespace Sys2Proof

/-- The address lies in the range. -/
def Region.contains (r : Region) (a : Nat) : Bool := decide (r.base ≤ a) && decide (a < r.base + r.size)

/-- Two ranges share an address. -/
def Region.overlaps (r t : Region) : Bool :=
  decide (max r.base t.base < min (r.base + r.size) (t.base + t.size))

/-- `MemOk(a)`: the platform answers a read of byte address `a` with data (R7, R64). -/
def Config.memOk (c : Config) (a : Nat) : Bool := !c.memErr.any (fun r => r.contains a)

/-- The entry `S[i]` of the secret table (R104). -/
def SecretTable.entry (S : SecretTable) : Fin 4 → Word
  | 0 => S.s0
  | 1 => S.s1
  | 2 => S.s2
  | 3 => S.s3

/-- The size of a window in bytes (R21). -/
abbrev windowSize : Nat := 0x100

/-- The instance whose window holds the address, and the offset in it (R21, R60), the search starting at instance number `k`. -/
def findWindow (bases : List Nat) (k a : Nat) : Option (Nat × BitVec 8) :=
  match bases with
  | [] => none
  | b :: bs => if b ≤ a ∧ a < b + windowSize then some (k, BitVec.ofNat 8 (a - b)) else findWindow bs (k + 1) a

/-- The instance whose window holds the address, and the offset in it. -/
def Config.windowOf (c : Config) (a : Nat) : Option (Nat × BitVec 8) := findWindow c.bases 0 a

namespace Machine

/-- `range_ok(src, len)`: `len = 0`, or `src + len <= 2^ADDR_W` in integers (R161). -/
def rangeOk (c : Config) (src len : Word) : Bool := len == 0 || decide (src.toNat + len.toNat ≤ 2 ^ c.addrW)

/-- The addresses of a buffer of `len` bytes at `src`, computed in integers (R55). -/
def bufferRegion (src len : Word) : Region := { base := src.toNat, size := len.toNat }

/-- The buffer of the operation in progress, `[L_SRC, L_SRC + L_LEN)`. -/
def Engine.buffer (e : Engine) : Region := bufferRegion e.lSrc e.lLen

/-- The condition of a `poll` line holds of the value read (R84). -/
def Cond.holds : Cond → Word → Bool
  | .maskEq mask want, v => (v &&& mask) == want
  | .not c, v => !c.holds v
  | .and c d, v => c.holds v && d.holds v
  | .or c d, v => c.holds v || d.holds v

end Machine

end Sys2Proof
end

