-- ==== Sys2Proof/Machine/Ops.lean ====
section
/-! DEFINITION. The named operations over memory and registers, and the one error action (spec/60_exceptions.md R202). The block has no
trap mechanism (R203): an error is taken by `raiseError` and needs no return (R204). -/

namespace Sys2Proof.Machine

/-- The answer of a meaning or of a step. -/
abbrev Answer := Host.Outcome State Fault Refusal

/-! ### Host memory -/

/-- The byte at an address; an address not listed reads as 0 (log entry 6). -/
def Memory.read : Memory → Nat → Byte
  | [], _ => 0
  | (a, b) :: m, x => if x = a then b else Memory.read m x

/-- The canonical list with one byte at an address written. -/
def Memory.write : Memory → Nat → Byte → Memory
  | [], x, v => if v = 0 then [] else [(x, v)]
  | (a, b) :: m, x, v =>
    if x < a then (if v = 0 then (a, b) :: m else (x, v) :: (a, b) :: m)
    else if x = a then (if v = 0 then m else (a, v) :: m)
    else (a, b) :: Memory.write m x v

/-- Bytes written at rising addresses. -/
def Memory.writeBytes : Memory → Nat → List Byte → Memory
  | m, _, [] => m
  | m, x, v :: vs => Memory.writeBytes (Memory.write m x v) (x + 1) vs

/-! ### Instances -/

/-- The instance the access on the bus addresses. -/
def State.engine? (s : State) : Option Engine := s.engines[s.target]?

/-- Replace the registers of instance `k`. -/
def State.setEngine (s : State) (k : Nat) (e : Engine) : State := { s with engines := s.engines.set k e }

/-- Replace host agent `j`. -/
def State.setHost (s : State) (j : Nat) (h : HostAgent) : State := { s with hosts := s.hosts.set j h }

/-- The state with the value a register read returned. -/
def State.withData (s : State) (v : Word) : State := { s with rdata := v }

/-- The state after `n` free values are drawn. -/
def State.drawn (s : State) (n : Nat) : State := { s with free := s.free + n }

/-- What an access does to the instance it addresses; a fault where it addresses none. -/
def onTarget (f : Engine → State) (s : State) : Answer :=
  match s.engine? with
  | some e => .next (f e)
  | none => .fault .noInstance

/-- A register read: the value goes to the host, and nothing else changes (R62, R150). -/
def readReg (f : Engine → Word) (s : State) : Answer := onTarget (fun e => s.withData (f e)) s

/-- A register write (R150). -/
def writeReg (f : Engine → Engine) (s : State) : Answer := onTarget (fun e => s.setEngine s.target (f e)) s

/-! ### Errors and operations -/

/-- `raise Error(code)` (R202): the flags, and `PHASE` to `IDLE`; every other register keeps its value (an abort then goes on as R178 says).
DEDUCED (log entry 18): the internal registers keep their values after an error of an idle instance, as R165 and R203 say, where D33 calls them
unspecified outside an operation. -/
def Engine.raiseError (c : ErrorCause) (e : Engine) : Engine := { e.flagsFailed c with phase := .idle }

/-- `RESULT` of an operation started now is any value: a host agent wrote a byte of the buffer and has not made it visible (R65(b), I17),
or the buffer covers addresses whose reads have side effects (R58, I2). -/
def State.startsRaced (s : State) (buf : Region) : Bool :=
  s.hosts.any (fun h => h.unfenced.any (fun r => r.overlaps buf)) || s.cfg.nonIdempotent.any (fun r => r.overlaps buf)

/-- DIGEST accepted: the operands are latched and the operation starts (R163). -/
def Engine.start (raced : Bool) (e : Engine) : Engine :=
  { e.flagsStarted with lSeed := e.seed, lSrc := e.src, lLen := e.len, phase := .init, raced := raced }

/-- The effect of a DIGEST while idle: accepted, or refused by the range check (R161, R163, R164). -/
def Engine.digestIdle (s : State) (e : Engine) : Engine :=
  if rangeOk s.cfg e.src e.len then e.start (s.startsRaced (bufferRegion e.src e.len)) else e.raiseError .range

/-- The effect of an illegal command while idle (R165). -/
def Engine.illegalIdle (e : Engine) : Engine := e.raiseError .illegalCmd

/-- A command: ignored while `BUSY = 1` (R161), else the effect given. -/
def command (f : Engine → Engine) (s : State) : Answer :=
  writeReg (fun e => if e.busy then e else f e) s

end Sys2Proof.Machine
end

