-- ==== Sys2Proof/Machine/Commands.lean ====
section
/-! DEFINITION. The command words: spec/42_commands.md R161 to R165. -/

namespace Sys2Proof.Machine

/-- NOP (R162): no state changes, idle or busy. -/
def execNop (s : State) : Host.Outcome State Fault Refusal := command (fun e => e) s

/-- DIGEST (R163, R164). -/
def execDigest (s : State) : Host.Outcome State Fault Refusal := command (fun e => e.digestIdle s) s

/-- ILLEGAL (R165): the word takes no part in the effect. -/
def execIllegal (_w : Word) (s : State) : Host.Outcome State Fault Refusal := command (fun e => e.illegalIdle) s

/-- Write `CMD` (R161): the dispatch on the word, decoded by R71. -/
def execWrCmd (w : Word) (s : State) : Host.Outcome State Fault Refusal :=
  command (fun e =>
    match decodeCommand w with
    | .nop => e
    | .digest => e.digestIdle s
    | _ => e.illegalIdle) s

end Sys2Proof.Machine
end

