-- ==== Sys2Proof/Machine/Reads.lean ====
section
/-! DEFINITION. The register reads: spec/42_commands.md R151 to R157. No read has a side effect (R62). -/

namespace Sys2Proof.Machine

/-- RD_CMD (R151, R22): the value read is 0, `CMD` has no storage. -/
def execRdCmd (s : State) : Host.Outcome State Fault Refusal := readReg (fun _ => 0) s

/-- RD_STATUS (R152). -/
def execRdStatus (s : State) : Host.Outcome State Fault Refusal := readReg (fun e => e.statusWord) s

/-- RD_SEED (R153): the register, not the latched `L_SEED`. -/
def execRdSeed (s : State) : Host.Outcome State Fault Refusal := readReg (fun e => e.seed) s

/-- RD_SRC (R154): all 64 bits. -/
def execRdSrc (s : State) : Host.Outcome State Fault Refusal := readReg (fun e => e.src) s

/-- RD_LEN (R155). -/
def execRdLen (s : State) : Host.Outcome State Fault Refusal := readReg (fun e => e.len) s

/-- RD_RESULT (R156). -/
def execRdResult (s : State) : Host.Outcome State Fault Refusal := readReg (fun e => e.result) s

/-- RD_RESERVED_30 (R157, R33): the value read is 0. -/
def execRdReserved30 (s : State) : Host.Outcome State Fault Refusal := readReg (fun _ => 0) s

/-- RD_RESERVED_38 (R157, R33): the value read is 0. -/
def execRdReserved38 (s : State) : Host.Outcome State Fault Refusal := readReg (fun _ => 0) s

/-- RD_RESERVED_40 (R157, R33): the value read is 0. -/
def execRdReserved40 (s : State) : Host.Outcome State Fault Refusal := readReg (fun _ => 0) s

/-- RD_RESERVED_48 (R157, R33): the value read is 0. -/
def execRdReserved48 (s : State) : Host.Outcome State Fault Refusal := readReg (fun _ => 0) s

/-- RD_RESERVED_50 (R157, R33): the value read is 0. -/
def execRdReserved50 (s : State) : Host.Outcome State Fault Refusal := readReg (fun _ => 0) s

/-- RD_RESERVED_58 (R157, R33): the value read is 0. -/
def execRdReserved58 (s : State) : Host.Outcome State Fault Refusal := readReg (fun _ => 0) s

/-- RD_RESERVED_60 (R157, R33): the value read is 0. -/
def execRdReserved60 (s : State) : Host.Outcome State Fault Refusal := readReg (fun _ => 0) s

/-- RD_RESERVED_68 (R157, R33): the value read is 0. -/
def execRdReserved68 (s : State) : Host.Outcome State Fault Refusal := readReg (fun _ => 0) s

/-- RD_RESERVED_70 (R157, R33): the value read is 0. -/
def execRdReserved70 (s : State) : Host.Outcome State Fault Refusal := readReg (fun _ => 0) s

/-- RD_RESERVED_78 (R157, R33): the value read is 0. -/
def execRdReserved78 (s : State) : Host.Outcome State Fault Refusal := readReg (fun _ => 0) s

/-- RD_RESERVED_80 (R157, R33): the value read is 0. -/
def execRdReserved80 (s : State) : Host.Outcome State Fault Refusal := readReg (fun _ => 0) s

/-- RD_RESERVED_88 (R157, R33): the value read is 0. -/
def execRdReserved88 (s : State) : Host.Outcome State Fault Refusal := readReg (fun _ => 0) s

/-- RD_RESERVED_90 (R157, R33): the value read is 0. -/
def execRdReserved90 (s : State) : Host.Outcome State Fault Refusal := readReg (fun _ => 0) s

/-- RD_RESERVED_98 (R157, R33): the value read is 0. -/
def execRdReserved98 (s : State) : Host.Outcome State Fault Refusal := readReg (fun _ => 0) s

/-- RD_RESERVED_A0 (R157, R33): the value read is 0. -/
def execRdReservedA0 (s : State) : Host.Outcome State Fault Refusal := readReg (fun _ => 0) s

/-- RD_RESERVED_A8 (R157, R33): the value read is 0. -/
def execRdReservedA8 (s : State) : Host.Outcome State Fault Refusal := readReg (fun _ => 0) s

/-- RD_RESERVED_B0 (R157, R33): the value read is 0. -/
def execRdReservedB0 (s : State) : Host.Outcome State Fault Refusal := readReg (fun _ => 0) s

/-- RD_RESERVED_B8 (R157, R33): the value read is 0. -/
def execRdReservedB8 (s : State) : Host.Outcome State Fault Refusal := readReg (fun _ => 0) s

/-- RD_RESERVED_C0 (R157, R33): the value read is 0. -/
def execRdReservedC0 (s : State) : Host.Outcome State Fault Refusal := readReg (fun _ => 0) s

/-- RD_RESERVED_C8 (R157, R33): the value read is 0. -/
def execRdReservedC8 (s : State) : Host.Outcome State Fault Refusal := readReg (fun _ => 0) s

/-- RD_RESERVED_D0 (R157, R33): the value read is 0. -/
def execRdReservedD0 (s : State) : Host.Outcome State Fault Refusal := readReg (fun _ => 0) s

/-- RD_RESERVED_D8 (R157, R33): the value read is 0. -/
def execRdReservedD8 (s : State) : Host.Outcome State Fault Refusal := readReg (fun _ => 0) s

/-- RD_RESERVED_E0 (R157, R33): the value read is 0. -/
def execRdReservedE0 (s : State) : Host.Outcome State Fault Refusal := readReg (fun _ => 0) s

/-- RD_RESERVED_E8 (R157, R33): the value read is 0. -/
def execRdReservedE8 (s : State) : Host.Outcome State Fault Refusal := readReg (fun _ => 0) s

/-- RD_RESERVED_F0 (R157, R33): the value read is 0. -/
def execRdReservedF0 (s : State) : Host.Outcome State Fault Refusal := readReg (fun _ => 0) s

/-- RD_RESERVED_F8 (R157, R33): the value read is 0. -/
def execRdReservedF8 (s : State) : Host.Outcome State Fault Refusal := readReg (fun _ => 0) s

end Sys2Proof.Machine
end

