-- ==== Sys2Proof/Machine/Writes.lean ====
section
/-! DEFINITION. The register writes other than `CMD`: spec/42_commands.md R158 to R160 and R166, and the access that is not admitted
(spec/20_memory.md R60). -/

namespace Sys2Proof.Machine

/-- WR_SEED (R158): accepted while busy too, and then without effect on the operation in progress (R29). -/
def execWrSeed (v : Word) (s : State) : Host.Outcome State Fault Refusal := writeReg (fun e => { e with seed := v }) s

/-- WR_SRC (R159): any value, of any alignment. -/
def execWrSrc (v : Word) (s : State) : Host.Outcome State Fault Refusal := writeReg (fun e => { e with src := v }) s

/-- WR_LEN (R160). -/
def execWrLen (v : Word) (s : State) : Host.Outcome State Fault Refusal := writeReg (fun e => { e with len := v }) s

/-- A write the register ignores: no state changes (R166). -/
def ignoreWrite (_v : Word) (s : State) : Host.Outcome State Fault Refusal := writeReg (fun e => e) s

/-- WR_STATUS (R166): ignored; it clears nothing. -/
def execWrStatus (v : Word) (s : State) : Host.Outcome State Fault Refusal := ignoreWrite v s

/-- WR_RESULT (R166): ignored. -/
def execWrResult (v : Word) (s : State) : Host.Outcome State Fault Refusal := ignoreWrite v s

/-- WR_RESERVED_30 (R166, R33): ignored. -/
def execWrReserved30 (v : Word) (s : State) : Host.Outcome State Fault Refusal := ignoreWrite v s

/-- WR_RESERVED_38 (R166, R33): ignored. -/
def execWrReserved38 (v : Word) (s : State) : Host.Outcome State Fault Refusal := ignoreWrite v s

/-- WR_RESERVED_40 (R166, R33): ignored. -/
def execWrReserved40 (v : Word) (s : State) : Host.Outcome State Fault Refusal := ignoreWrite v s

/-- WR_RESERVED_48 (R166, R33): ignored. -/
def execWrReserved48 (v : Word) (s : State) : Host.Outcome State Fault Refusal := ignoreWrite v s

/-- WR_RESERVED_50 (R166, R33): ignored. -/
def execWrReserved50 (v : Word) (s : State) : Host.Outcome State Fault Refusal := ignoreWrite v s

/-- WR_RESERVED_58 (R166, R33): ignored. -/
def execWrReserved58 (v : Word) (s : State) : Host.Outcome State Fault Refusal := ignoreWrite v s

/-- WR_RESERVED_60 (R166, R33): ignored. -/
def execWrReserved60 (v : Word) (s : State) : Host.Outcome State Fault Refusal := ignoreWrite v s

/-- WR_RESERVED_68 (R166, R33): ignored. -/
def execWrReserved68 (v : Word) (s : State) : Host.Outcome State Fault Refusal := ignoreWrite v s

/-- WR_RESERVED_70 (R166, R33): ignored. -/
def execWrReserved70 (v : Word) (s : State) : Host.Outcome State Fault Refusal := ignoreWrite v s

/-- WR_RESERVED_78 (R166, R33): ignored. -/
def execWrReserved78 (v : Word) (s : State) : Host.Outcome State Fault Refusal := ignoreWrite v s

/-- WR_RESERVED_80 (R166, R33): ignored. -/
def execWrReserved80 (v : Word) (s : State) : Host.Outcome State Fault Refusal := ignoreWrite v s

/-- WR_RESERVED_88 (R166, R33): ignored. -/
def execWrReserved88 (v : Word) (s : State) : Host.Outcome State Fault Refusal := ignoreWrite v s

/-- WR_RESERVED_90 (R166, R33): ignored. -/
def execWrReserved90 (v : Word) (s : State) : Host.Outcome State Fault Refusal := ignoreWrite v s

/-- WR_RESERVED_98 (R166, R33): ignored. -/
def execWrReserved98 (v : Word) (s : State) : Host.Outcome State Fault Refusal := ignoreWrite v s

/-- WR_RESERVED_A0 (R166, R33): ignored. -/
def execWrReservedA0 (v : Word) (s : State) : Host.Outcome State Fault Refusal := ignoreWrite v s

/-- WR_RESERVED_A8 (R166, R33): ignored. -/
def execWrReservedA8 (v : Word) (s : State) : Host.Outcome State Fault Refusal := ignoreWrite v s

/-- WR_RESERVED_B0 (R166, R33): ignored. -/
def execWrReservedB0 (v : Word) (s : State) : Host.Outcome State Fault Refusal := ignoreWrite v s

/-- WR_RESERVED_B8 (R166, R33): ignored. -/
def execWrReservedB8 (v : Word) (s : State) : Host.Outcome State Fault Refusal := ignoreWrite v s

/-- WR_RESERVED_C0 (R166, R33): ignored. -/
def execWrReservedC0 (v : Word) (s : State) : Host.Outcome State Fault Refusal := ignoreWrite v s

/-- WR_RESERVED_C8 (R166, R33): ignored. -/
def execWrReservedC8 (v : Word) (s : State) : Host.Outcome State Fault Refusal := ignoreWrite v s

/-- WR_RESERVED_D0 (R166, R33): ignored. -/
def execWrReservedD0 (v : Word) (s : State) : Host.Outcome State Fault Refusal := ignoreWrite v s

/-- WR_RESERVED_D8 (R166, R33): ignored. -/
def execWrReservedD8 (v : Word) (s : State) : Host.Outcome State Fault Refusal := ignoreWrite v s

/-- WR_RESERVED_E0 (R166, R33): ignored. -/
def execWrReservedE0 (v : Word) (s : State) : Host.Outcome State Fault Refusal := ignoreWrite v s

/-- WR_RESERVED_E8 (R166, R33): ignored. -/
def execWrReservedE8 (v : Word) (s : State) : Host.Outcome State Fault Refusal := ignoreWrite v s

/-- WR_RESERVED_F0 (R166, R33): ignored. -/
def execWrReservedF0 (v : Word) (s : State) : Host.Outcome State Fault Refusal := ignoreWrite v s

/-- WR_RESERVED_F8 (R166, R33): ignored. -/
def execWrReservedF8 (v : Word) (s : State) : Host.Outcome State Fault Refusal := ignoreWrite v s

/-- UNADMITTED_ACCESS (R60, R75): "The platform's response to it is unspecified. A model refuses a host program that contains one". -/
def execUnadmittedAccess (_write : Bool) (_off : BitVec 8) (_data : Word) (_s : State) :
    Host.Outcome State Fault Refusal :=
  .refused .unadmittedAccess

end Sys2Proof.Machine
end

