-- ==== Sys2Proof/Machine/Dispatch.lean ====
section
/-! DEFINITION. The meaning of every instruction of spec/opcode_table.json: one arm per constructor, each one call of its meaning. -/

namespace Sys2Proof.Machine

def exec (i : Instr) (s : State) : Host.Outcome State Fault Refusal :=
  match i with
  -- command words (R71)
  | .nop => Sys2Proof.Machine.execNop s
  | .digest => Sys2Proof.Machine.execDigest s
  | .illegal w => Sys2Proof.Machine.execIllegal w s
  -- host accesses (R75)
  | .rdCmd => Sys2Proof.Machine.execRdCmd s
  | .wrCmd v => Sys2Proof.Machine.execWrCmd v s
  | .rdStatus => Sys2Proof.Machine.execRdStatus s
  | .wrStatus v => Sys2Proof.Machine.execWrStatus v s
  | .rdSeed => Sys2Proof.Machine.execRdSeed s
  | .wrSeed v => Sys2Proof.Machine.execWrSeed v s
  | .rdSrc => Sys2Proof.Machine.execRdSrc s
  | .wrSrc v => Sys2Proof.Machine.execWrSrc v s
  | .rdLen => Sys2Proof.Machine.execRdLen s
  | .wrLen v => Sys2Proof.Machine.execWrLen v s
  | .rdResult => Sys2Proof.Machine.execRdResult s
  | .wrResult v => Sys2Proof.Machine.execWrResult v s
  | .rdReserved30 => Sys2Proof.Machine.execRdReserved30 s
  | .wrReserved30 v => Sys2Proof.Machine.execWrReserved30 v s
  | .rdReserved38 => Sys2Proof.Machine.execRdReserved38 s
  | .wrReserved38 v => Sys2Proof.Machine.execWrReserved38 v s
  | .rdReserved40 => Sys2Proof.Machine.execRdReserved40 s
  | .wrReserved40 v => Sys2Proof.Machine.execWrReserved40 v s
  | .rdReserved48 => Sys2Proof.Machine.execRdReserved48 s
  | .wrReserved48 v => Sys2Proof.Machine.execWrReserved48 v s
  | .rdReserved50 => Sys2Proof.Machine.execRdReserved50 s
  | .wrReserved50 v => Sys2Proof.Machine.execWrReserved50 v s
  | .rdReserved58 => Sys2Proof.Machine.execRdReserved58 s
  | .wrReserved58 v => Sys2Proof.Machine.execWrReserved58 v s
  | .rdReserved60 => Sys2Proof.Machine.execRdReserved60 s
  | .wrReserved60 v => Sys2Proof.Machine.execWrReserved60 v s
  | .rdReserved68 => Sys2Proof.Machine.execRdReserved68 s
  | .wrReserved68 v => Sys2Proof.Machine.execWrReserved68 v s
  | .rdReserved70 => Sys2Proof.Machine.execRdReserved70 s
  | .wrReserved70 v => Sys2Proof.Machine.execWrReserved70 v s
  | .rdReserved78 => Sys2Proof.Machine.execRdReserved78 s
  | .wrReserved78 v => Sys2Proof.Machine.execWrReserved78 v s
  | .rdReserved80 => Sys2Proof.Machine.execRdReserved80 s
  | .wrReserved80 v => Sys2Proof.Machine.execWrReserved80 v s
  | .rdReserved88 => Sys2Proof.Machine.execRdReserved88 s
  | .wrReserved88 v => Sys2Proof.Machine.execWrReserved88 v s
  | .rdReserved90 => Sys2Proof.Machine.execRdReserved90 s
  | .wrReserved90 v => Sys2Proof.Machine.execWrReserved90 v s
  | .rdReserved98 => Sys2Proof.Machine.execRdReserved98 s
  | .wrReserved98 v => Sys2Proof.Machine.execWrReserved98 v s
  | .rdReservedA0 => Sys2Proof.Machine.execRdReservedA0 s
  | .wrReservedA0 v => Sys2Proof.Machine.execWrReservedA0 v s
  | .rdReservedA8 => Sys2Proof.Machine.execRdReservedA8 s
  | .wrReservedA8 v => Sys2Proof.Machine.execWrReservedA8 v s
  | .rdReservedB0 => Sys2Proof.Machine.execRdReservedB0 s
  | .wrReservedB0 v => Sys2Proof.Machine.execWrReservedB0 v s
  | .rdReservedB8 => Sys2Proof.Machine.execRdReservedB8 s
  | .wrReservedB8 v => Sys2Proof.Machine.execWrReservedB8 v s
  | .rdReservedC0 => Sys2Proof.Machine.execRdReservedC0 s
  | .wrReservedC0 v => Sys2Proof.Machine.execWrReservedC0 v s
  | .rdReservedC8 => Sys2Proof.Machine.execRdReservedC8 s
  | .wrReservedC8 v => Sys2Proof.Machine.execWrReservedC8 v s
  | .rdReservedD0 => Sys2Proof.Machine.execRdReservedD0 s
  | .wrReservedD0 v => Sys2Proof.Machine.execWrReservedD0 v s
  | .rdReservedD8 => Sys2Proof.Machine.execRdReservedD8 s
  | .wrReservedD8 v => Sys2Proof.Machine.execWrReservedD8 v s
  | .rdReservedE0 => Sys2Proof.Machine.execRdReservedE0 s
  | .wrReservedE0 v => Sys2Proof.Machine.execWrReservedE0 v s
  | .rdReservedE8 => Sys2Proof.Machine.execRdReservedE8 s
  | .wrReservedE8 v => Sys2Proof.Machine.execWrReservedE8 v s
  | .rdReservedF0 => Sys2Proof.Machine.execRdReservedF0 s
  | .wrReservedF0 v => Sys2Proof.Machine.execWrReservedF0 v s
  | .rdReservedF8 => Sys2Proof.Machine.execRdReservedF8 s
  | .wrReservedF8 v => Sys2Proof.Machine.execWrReservedF8 v s
  | .unadmittedAccess write off data => Sys2Proof.Machine.execUnadmittedAccess write off data s

end Sys2Proof.Machine
end

