-- ==== Sys2Proof/Machine/Datapath.lean ====
section
/-! DEFINITION. The datapath primitives of spec/40_datapath.md: the mum unit and the byte reader. A buffer is given as the function from
an offset `k` to the byte `B[k]` (R11). -/

namespace Sys2Proof.Machine

/-- MUL128: the exact product (R100). -/
def mul128 (a b : Word) : DWord := a.setWidth 128 * b.setWidth 128

/-- `lo64(p) = p[63:0]` (R10). -/
def lo64 (p : DWord) : Word := p.extractLsb' 0 64

/-- `hi64(p) = p[127:64]` (R10). -/
def hi64 (p : DWord) : Word := p.extractLsb' 64 64

/-- MUM: the low half and the high half of the product; they replace the operands (R101). -/
def mum (a b : Word) : Word × Word := (lo64 (mul128 a b), hi64 (mul128 a b))

/-- MIX: the xor of the two halves (R102). -/
def mix (a b : Word) : Word := (mum a b).1 ^^^ (mum a b).2

/-- The `n` bytes from offset `k`, the lowest the least significant, as an integer (R52). -/
def leRead (B : Nat → Byte) (k : Nat) : Nat → Nat
  | 0 => 0
  | n + 1 => (B k).toNat + 256 * leRead B (k + 1) n

/-- `MemRead(k, n)` over the bytes `B` (R52). -/
def memRead (B : Nat → Byte) (k n : Nat) : BitVec (8 * n) := BitVec.ofNat (8 * n) (leRead B k n)

/-- R8 (R106). -/
def r8 (B : Nat → Byte) (k : Nat) : Word := (memRead B k 8).setWidth 64

/-- R4, zero-extended (R107). -/
def r4 (B : Nat → Byte) (k : Nat) : Word := (memRead B k 4).setWidth 64

/-- R3: the 3-byte packing, for `1 <= n <= 3` (R108). -/
def r3 (B : Nat → Byte) (n : Nat) : Word :=
  (B 0).setWidth 64 <<< 16 ||| (B (n >>> 1)).setWidth 64 <<< 8 ||| (B (n - 1)).setWidth 64

end Sys2Proof.Machine
end

