-- ==== Sys2Proof/Machine/Digest.lean ====
section
/-! DEFINITION. The digest algorithm of spec/41_digest.md: the sub-functions the engine's steps apply, and the pure function `digest` (R121)
composed of them. It is a function of the bytes, the length, the seed and the secret table alone (R120). -/

namespace Sys2Proof.Machine

/-- The seed aggregator's registers: three lanes and the progress through the buffer (R36, R38). -/
structure Lanes where
  acc0 : Word
  acc1 : Word
  acc2 : Word
  off  : Word
  rem  : Word
deriving DecidableEq, Repr

/-- INIT: mix the seed (R122). -/
def seedMix (S : SecretTable) (seed : Word) : Word := seed ^^^ mix (seed ^^^ S.entry 0) (S.entry 1)

/-- The lanes on entry to the long path; the bulk phase starts its two other lanes as copies (R123, R124). -/
def longStart (acc n : Word) : Lanes := { acc0 := acc, acc1 := acc, acc2 := acc, off := 0, rem := n }

/-- One bulk round: all right-hand sides read the values before the round (R125). -/
def bulkRound (S : SecretTable) (B : Nat → Byte) (l : Lanes) : Lanes :=
  let k := l.off.toNat
  { acc0 := mix (r8 B k ^^^ S.entry 1) (r8 B (k + 8) ^^^ l.acc0)
    acc1 := mix (r8 B (k + 16) ^^^ S.entry 2) (r8 B (k + 24) ^^^ l.acc1)
    acc2 := mix (r8 B (k + 32) ^^^ S.entry 3) (r8 B (k + 40) ^^^ l.acc2)
    off  := l.off + 48
    rem  := l.rem - 48 }

/-- The merge of the lanes (R126). -/
def mergeLanes (l : Lanes) : Lanes := { l with acc0 := l.acc0 ^^^ l.acc1 ^^^ l.acc2 }

/-- One 16-byte fold (R127). -/
def foldRound (S : SecretTable) (B : Nat → Byte) (l : Lanes) : Lanes :=
  let k := l.off.toNat
  { l with
    acc0 := mix (r8 B k ^^^ S.entry 1) (r8 B (k + 8) ^^^ l.acc0)
    off  := l.off + 16
    rem  := l.rem - 16 }

/-- Bulk rounds while `rem >= 48` (R124), at most as many as the first argument. -/
def bulkLoop (S : SecretTable) (B : Nat → Byte) : Nat → Lanes → Lanes
  | 0, l => l
  | f + 1, l => if 48 ≤ l.rem.toNat then bulkLoop S B f (bulkRound S B l) else l

/-- Folds while `rem > 16` (R127), at most as many as the first argument. -/
def foldLoop (S : SecretTable) (B : Nat → Byte) : Nat → Lanes → Lanes
  | 0, l => l
  | f + 1, l => if 16 < l.rem.toNat then foldLoop S B f (foldRound S B l) else l

/-- `q = (n >> 3) << 2` (R130). -/
def pairOffset (n : Nat) : Nat := (n >>> 3) <<< 2

/-- The R4 pair packing of bands 4 to 16 (R130). -/
def r4Pair (B : Nat → Byte) (n : Nat) : Word × Word :=
  (r4 B 0 <<< 32 ||| r4 B (pairOffset n), r4 B (n - 4) <<< 32 ||| r4 B (n - 4 - pairOffset n))

/-- The operands of the short bands (R128, R129, R130; the select of R131). -/
def shortOperands (B : Nat → Byte) (n : Nat) : Word × Word :=
  if n = 0 then (0, 0) else if n ≤ 3 then (r3 B n, 0) else r4Pair B n

/-- The operands of the long path: the last 16 bytes (R132). -/
def tailOperands (B : Nat → Byte) (n : Nat) : Word × Word := (r8 B (n - 16), r8 B (n - 8))

/-- FIN1: the unfolded product (R133). -/
def fin1 (S : SecretTable) (acc0 fa fb : Word) : Word × Word := mum (fa ^^^ S.entry 1) (fb ^^^ acc0)

/-- FIN2: the final fold (R134). -/
def fin2 (S : SecretTable) (n fa fb : Word) : Word := mix (fa ^^^ S.entry 0 ^^^ n) (fb ^^^ S.entry 1)

/-- FIN1 and then FIN2. -/
def finish (S : SecretTable) (n acc0 : Word) (p : Word × Word) : Word :=
  let q := fin1 S acc0 p.1 p.2
  fin2 S n q.1 q.2

/-- The lanes after the folds that follow a bulk phase or a long-path entry. A remaining length below 48 folds at most twice (R127). -/
def foldPhase (S : SecretTable) (B : Nat → Byte) (l : Lanes) : Lanes := foldLoop S B 2 l

/-- The lanes after the bulk phase (R124 to R126): at least one round, then the merge. -/
def bulkPhase (S : SecretTable) (B : Nat → Byte) (l : Lanes) : Lanes := mergeLanes (bulkLoop S B l.rem.toNat l)

/-- The lanes when the long path reaches its last 16 bytes. -/
def longPath (S : SecretTable) (B : Nat → Byte) (acc n : Word) : Lanes :=
  foldPhase S B (if 48 ≤ n.toNat then bulkPhase S B (longStart acc n) else longStart acc n)

/-- The digest (R121). -/
def digest (S : SecretTable) (B : Nat → Byte) (n seed : Word) : Word :=
  let acc := seedMix S seed
  if n.toNat ≤ 16 then finish S n acc (shortOperands B n.toNat)
  else finish S n (longPath S B acc n).acc0 (tailOperands B n.toNat)

/-- The number of bulk rounds of an operation of length `n` (R124). -/
def bulkCount (n : Nat) : Nat := n / 48

/-- The number of folds of an operation of length `n` (R127, R131). -/
def foldCount (n : Nat) : Nat :=
  if n ≤ 16 then 0
  else
    let r := n % 48
    if r ≤ 16 then 0 else if r ≤ 32 then 1 else 2

/-- The number of engine steps of an operation of length `n` (R180). -/
def stepCount (n : Nat) : Nat := if n ≤ 16 then 4 else 4 + bulkCount n + foldCount n

end Sys2Proof.Machine
end

