-- ==== Sys2Proof/Machine/Sequencer.lean ====
section
/-! DEFINITION. The engine sequencer: spec/42_commands.md R170 to R178, and the reset of an instance
(spec/70_reset_and_hazards.md R220). -/

namespace Sys2Proof.Machine

/-- The byte `B[k]` of the operation in progress: host memory at `L_SRC + k`, computed in integers (R34, R55). -/
def Engine.bytes (m : Memory) (e : Engine) : Nat → Byte := fun k => m.read (e.lSrc.toNat + k)

/-- The offsets `k .. k + n - 1`. -/
def offsets (k n : Nat) : List Nat := (List.range n).map (fun j => k + j)

/-- The buffer offsets whose bytes the SHORT step uses (R128 to R130). -/
def shortNeeds (n : Nat) : List Nat :=
  if n = 0 then []
  else if n ≤ 3 then [0, n >>> 1, n - 1]
  else offsets 0 4 ++ offsets (pairOffset n) 4 ++ offsets (n - 4) 4 ++ offsets (n - 4 - pairOffset n) 4

/-- The buffer offsets whose bytes the next engine step uses (R170 to R177, R57). -/
def Engine.needs (e : Engine) : List Nat :=
  match e.phase with
  | .short => shortNeeds e.lLen.toNat
  | .bulk => offsets e.off.toNat 48
  | .fold16 => offsets e.off.toNat 16
  | .tail => offsets (e.lLen.toNat - 16) 16
  | .idle | .init | .fin1 | .fin2 => []

/-- The platform answers every read of the next engine step with data (R170). -/
def Engine.readsOk (c : Config) (e : Engine) : Bool := e.needs.all (fun k => c.memOk (e.lSrc.toNat + k))

/-- The seed aggregator of an engine. -/
def Engine.lanes (e : Engine) : Lanes := { acc0 := e.acc0, acc1 := e.acc1, acc2 := e.acc2, off := e.off, rem := e.rem }

/-- Replace the seed aggregator of an engine. -/
def Engine.setLanes (e : Engine) (l : Lanes) : Engine :=
  { e with acc0 := l.acc0, acc1 := l.acc1, acc2 := l.acc2, off := l.off, rem := l.rem }

/-- INIT step (R171). -/
def stepInit (S : SecretTable) (e : Engine) : Engine :=
  let acc := seedMix S e.lSeed
  if e.lLen.toNat ≤ 16 then { e with acc0 := acc, phase := .short }
  else if 48 ≤ e.lLen.toNat then { e.setLanes (longStart acc e.lLen) with phase := .bulk }
  else { e with acc0 := acc, off := 0, rem := e.lLen, phase := .fold16 }

/-- SHORT step (R172). -/
def stepShort (B : Nat → Byte) (e : Engine) : Engine :=
  let p := shortOperands B e.lLen.toNat
  { e with fa := p.1, fb := p.2, phase := .fin1 }

/-- BULK step: one round, and the merge after the last (R173). -/
def stepBulk (S : SecretTable) (B : Nat → Byte) (e : Engine) : Engine :=
  let l := bulkRound S B e.lanes
  if l.rem.toNat < 48 then
    { e.setLanes (mergeLanes l) with phase := if 16 < l.rem.toNat then .fold16 else .tail }
  else e.setLanes l

/-- FOLD16 step (R174). -/
def stepFold16 (S : SecretTable) (B : Nat → Byte) (e : Engine) : Engine :=
  let l := foldRound S B e.lanes
  { e.setLanes l with phase := if 16 < l.rem.toNat then .fold16 else .tail }

/-- TAIL step (R175). -/
def stepTail (B : Nat → Byte) (e : Engine) : Engine :=
  let p := tailOperands B e.lLen.toNat
  { e with fa := p.1, fb := p.2, phase := .fin1 }

/-- FIN1 step (R176). -/
def stepFin1 (S : SecretTable) (e : Engine) : Engine :=
  let p := fin1 S e.acc0 e.fa e.fb
  { e with fa := p.1, fb := p.2, phase := .fin2 }

/-- FIN2 step: completion (R177). `RESULT` of a raced operation is the free value `v` (R58, R66); the flags are as ever.
DEDUCED (log entry 18): the internal registers keep their values, as R177 says, where D33 calls them unspecified outside an operation. -/
def stepFin2 (S : SecretTable) (v : Word) (e : Engine) : Engine :=
  { e.flagsCompleted with
    result := if e.raced then v else fin2 S e.lLen e.fa e.fb
    phase  := .idle }

/-- The internal registers but `PHASE` hold any value (R34, I4 of spec/93_implementation_defined.md): each takes a free value. -/
def Engine.drawInternals (n : Nat) (e : Engine) : Engine :=
  { e with
    lSeed := Config.freeWord n
    lSrc  := Config.freeWord (n + 1)
    lLen  := Config.freeWord (n + 2)
    acc0  := Config.freeWord (n + 3)
    acc1  := Config.freeWord (n + 4)
    acc2  := Config.freeWord (n + 5)
    fa    := Config.freeWord (n + 6)
    fb    := Config.freeWord (n + 7)
    off   := Config.freeWord (n + 8)
    rem   := Config.freeWord (n + 9) }

/-- Abort on a bus error (R178): the error action (R202); the internal registers are any value after it (R178, I4). -/
def Engine.abort (n : Nat) (e : Engine) : Engine := (e.raiseError .busError).drawInternals n

/-- The action of the rule for the current `PHASE`, all its reads answered (R170). -/
def Engine.act (S : SecretTable) (B : Nat → Byte) (v : Word) (e : Engine) : Engine :=
  match e.phase with
  | .idle => e
  | .init => stepInit S e
  | .short => stepShort B e
  | .bulk => stepBulk S B e
  | .fold16 => stepFold16 S B e
  | .tail => stepTail B e
  | .fin1 => stepFin1 S e
  | .fin2 => stepFin2 S v e

/-- One engine step (R170): the action, or the abort where a read is answered with an error. `n` counts the free values drawn so far. -/
def Engine.advance (c : Config) (m : Memory) (n : Nat) (e : Engine) : Engine :=
  if e.readsOk c then e.act c.secret (e.bytes m) (Config.freeWord n) else e.abort n

/-- How many free values an engine step or a reset may draw. -/
def drawsPerMove : Nat := 10

/-- The engine of instance `k` moves: enabled iff `PHASE != IDLE` (R170); where it is not enabled, nothing happens (R213). -/
def engineMove (k : Nat) (s : State) : State :=
  match s.engines[k]? with
  | none => s
  | some e =>
    if e.phase = .idle then s else (s.setEngine k (e.advance s.cfg s.mem s.free)).drawn drawsPerMove

/-- The registers of an instance after its reset (R220): the internal registers are any value (R220, I4). -/
def Engine.afterReset (n : Nat) : Engine := Engine.reset.drawInternals n

/-- The platform asserts the reset of instance `k`: one atomic step (R220, R221). -/
def resetMove (k : Nat) (s : State) : State := (s.setEngine k (Engine.afterReset s.free)).drawn drawsPerMove

end Sys2Proof.Machine
end

