-- ==== Sys2Proof/Machine/Agents.lean ====
section
/-! DEFINITION. The moves of the agents (spec/00_scope.md R15): the lines of a host agent (spec/30_encoding.md R84), an engine step, a
reset; and which agent moves next. -/

namespace Sys2Proof.Machine

/-- Go on with a next state; a fault or a refusal stops. -/
def onNext (r : Answer) (f : State → Answer) : Answer :=
  match r with
  | .next s => f s
  | .fault x => .fault x
  | .refused x => .refused x

/-- Host agent `j` binds the value last read to a name (R84 `rd REG -> name`). -/
def bindRead (j : Nat) (name : Option Nat) (s : State) : State :=
  match name, s.hosts[j]? with
  | some n, some h => s.setHost j { h with bound := (n, s.rdata) :: h.bound }
  | _, _ => s

/-- Give an encoded form to instance `k`: decode it and run the instruction (R70, R150). -/
def issue (k : Nat) (e : Encoded) (s : State) : Answer := exec (decode e) { s with target := k }

/-- One transfer on the bus (R60, R75): the window its address lies in gives the instance and `off`. A width other than 64 bits is not
admitted (R60, I3). -/
def busAccess (a : BusAccess) (s : State) : Answer :=
  match s.cfg.windowOf a.addr with
  | none => .refused .outsideWindows
  | some (k, off) =>
    if a.size = 8 then issue k (.access (descriptor a.write off) (if a.write then a.data else 0)) s
    else .refused .unadmittedAccess

/-- A `bus` line: the transfer, then the binding of the value read. -/
def hostBus (j : Nat) (a : BusAccess) (bind : Option Nat) (s : State) : Answer :=
  onNext (busAccess a s) fun t => .next (if a.write then t else bindRead j bind t)

/-- The 64-bit read at an address. -/
def readAt (addr : Nat) : BusAccess := { addr := addr, size := 8, write := false, data := 0 }

/-- A `poll` line: one read; where the condition fails, the line `l` stays the agent's next one (R84). -/
def hostPoll (j : Nat) (addr : Nat) (c : Cond) (s : State) : Answer :=
  onNext (busAccess (readAt addr) s) fun t =>
    if c.holds t.rdata then .next t
    else
      match t.hosts[j]? with
      | some h => .next (t.setHost j { h with prog := .poll addr c :: h.prog })
      | none => .next t

/-- An engine whose buffer a write to `r` touches while it is busy: its `RESULT` is any value from now on (R66). -/
def Engine.noteWrite (r : Region) (e : Engine) : Engine :=
  if e.busy && r.overlaps e.buffer then { e with raced := true } else e

/-- A `memwr` line (R84): ordinary memory only. The bytes written are not visible to the engines for sure before the agent's next `fence`
(R65(b)), and a write into the buffer of an operation in progress is a race (R66). -/
def hostMemwr (j : Nat) (addr : Nat) (bytes : List Byte) (s : State) : Answer :=
  let r : Region := { base := addr, size := bytes.length }
  if 2 ^ s.cfg.addrW < addr + bytes.length then .fault .noSuchAddress
  else if s.cfg.bases.any (fun b => r.overlaps { base := b, size := windowSize }) then .refused .memwrToWindow
  else
    let t := { s with mem := s.mem.writeBytes addr bytes, engines := s.engines.map (Engine.noteWrite r) }
    match s.hosts[j]? with
    | some h => .next (t.setHost j { h with unfenced := r :: h.unfenced })
    | none => .next t

/-- A `fence` line (R84): the agent's prior memory writes are visible to the engines (R65(b), R232). -/
def hostFence (j : Nat) (s : State) : Answer :=
  match s.hosts[j]? with
  | some h => .next (s.setHost j { h with unfenced := [] })
  | none => .next s

/-- One line of host agent `j`. -/
def hostLine (j : Nat) (l : HostLine) (s : State) : Answer :=
  match l with
  | .bus a bind => hostBus j a bind s
  | .command k w => issue k (.command w) s
  | .poll addr c => hostPoll j addr c s
  | .memwr addr bytes => hostMemwr j addr bytes s
  | .fence => hostFence j s

/-- Host agent `j` moves: its next line, in the order it issues them (R65(a)); with no line left it does nothing. -/
def hostMove (j : Nat) (s : State) : Answer :=
  match s.hosts[j]? with
  | none => .next s
  | some h =>
    match h.prog with
    | [] => .next s
    | l :: rest => hostLine j l (s.setHost j { h with prog := rest })

/-- One move of an agent. -/
def move (a : Agent) (s : State) : Answer :=
  match a with
  | .host j => hostMove j s
  | .engine k => .next (engineMove k s)
  | .reset k => .next (resetMove k s)

/-- The agents that can move: host agents with a line left, and busy engines (R170). A reset is the platform's and comes from the schedule
only. -/
def State.enabled (s : State) : List Agent :=
  ((List.range s.hosts.length).filter (fun j => (s.hosts[j]?).any (fun h => !h.prog.isEmpty))).map .host
    ++ ((List.range s.engines.length).filter (fun k => (s.engines[k]?).any (fun e => e.phase != .idle))).map .engine

/-- Who moves next, and the state without that choice: the head of the schedule; with an empty schedule one of the enabled agents, which
one being a free choice (R15, I15; log entry 4). -/
def nextAgent (s : State) : Option Agent × State :=
  match s.sched with
  | a :: rest => (some a, { s with sched := rest })
  | [] =>
    match s.enabled[Config.freeChoice s.free % s.enabled.length]? with
    | none => (none, s)
    | some a => (some a, s.drawn 1)

end Sys2Proof.Machine
end

