-- ==== Sys2Proof/Machine/Notation.lean ====
section
/-! DEFINITION. The host sequence notation and its pseudo-instructions, as host lines: spec/30_encoding.md R84 and R85; and the host
line that stands for an opcode-table word (log entry 12). -/

namespace Sys2Proof.Machine

/-- The register names of the notation (R84). -/
inductive Reg where
  | cmd | status | seed | src | len | result
deriving DecidableEq, Repr

/-- `off(REG)` (R21). -/
def Reg.offset : Reg → BitVec 8
  | .cmd => 0x00
  | .status => 0x08
  | .seed => 0x10
  | .src => 0x18
  | .len => 0x20
  | .result => 0x28

/-- The address of a register of the instance at `base`. -/
def Reg.addr (r : Reg) (base : Nat) : Nat := base + r.offset.toNat

/-- `wr REG, imm`. -/
def lineWr (base : Nat) (r : Reg) (imm : Word) : HostLine :=
  .bus { addr := r.addr base, size := 8, write := true, data := imm } none

/-- `rd REG -> name`. -/
def lineRd (base : Nat) (r : Reg) (name : Nat) : HostLine := .bus (readAt (r.addr base)) (some name)

/-- `poll REG until cond`. -/
def linePoll (base : Nat) (r : Reg) (c : Cond) : HostLine := .poll (r.addr base) c

/-- `nop` (R85). -/
def lineNop (base : Nat) : HostLine := lineWr base .cmd 0x0

/-- `digest` (R85). -/
def lineDigest (base : Nat) : HostLine := lineWr base .cmd 0x1

/-- `wait`: `poll STATUS until (value & 0x1) == 0` (R85). -/
def lineWait (base : Nat) : HostLine := linePoll base .status (.maskEq 0x1 0x0)

/-- `hash seed, src, len -> r` (R85). -/
def linesHash (base : Nat) (seed src len : Word) (r : Nat) : List HostLine :=
  [lineWr base .seed seed, lineWr base .src src, lineWr base .len len, .fence, lineDigest base, lineWait base,
    lineRd base .result r]

/-- The host line that gives instance 0 the encoded form of an opcode-table word: a command word (`nbits` from 33 to 64), or the bus access
of a descriptor with its data in the bits above the descriptor's two bytes. -/
def fetchLine (base nbits w : Nat) : HostLine :=
  if 32 < nbits ∧ nbits ≤ 64 then .command 0 (BitVec.ofNat 64 w)
  else
    .bus { addr := base + w % 0x100, size := 8, write := w / 0x100 % 2 == 1, data := BitVec.ofNat 64 (w / 0x10000) } none

end Sys2Proof.Machine
end

