-- ==== Sys2Proof/Machine/Step.lean ====
section
/-! DEFINITION. One step of the machine: one agent moves (spec/00_scope.md R15, spec/42_commands.md R150, R170). -/

namespace Sys2Proof.Machine

/-- One step: the next agent moves; with nothing enabled nothing happens (R213, R222). -/
def step (s : State) : Host.Outcome State Fault Refusal :=
  match nextAgent s with
  | (none, t) => .next t
  | (some a, t) => move a t

/-- `s` with the line of that opcode-table word (`fetchLine`) as the next one of host agent 0, and that agent as the next to move. The
block fetches no instructions (R69): this stands for the host that issues the access (log entry 12). -/
def State.withFetchWord (s : State) (nbits w : Nat) : State :=
  let l := fetchLine (s.cfg.bases.headD 0) nbits w
  { s with
    sched := .host 0 :: s.sched
    hosts :=
      match s.hosts with
      | [] => [{ HostAgent.reset with prog := [l] }]
      | h :: hs => { h with prog := l :: h.prog } :: hs }

end Sys2Proof.Machine
end

