-- ==== Sys2Proof/Safety.lean ====
section
/-! DEFINITION. What a good state and a safe run are, in the terms the statements use: the invariants of spec/10_state.md R44 and of the
sequencer, the digest an operation in progress is due to give (spec/42_commands.md R179), and the readability of a buffer (R178). -/

namespace Sys2Proof.Machine

/-- `off + rem = n`, in integers (R38). -/
def Engine.split (e : Engine) : Prop := e.off.toNat + e.rem.toNat = e.lLen.toNat

/-- What holds of the sequencer's registers in each phase (R38, R40, R171 to R175; R57 and R136 rest on it). -/
def Engine.phaseInv (e : Engine) : Prop :=
  match e.phase with
  | .idle | .init | .fin1 | .fin2 => True
  | .short => e.lLen.toNat ≤ 16
  | .bulk => 48 ≤ e.rem.toNat ∧ e.split
  | .fold16 => 16 < e.lLen.toNat ∧ 16 < e.rem.toNat ∧ e.rem.toNat < 48 ∧ e.split
  | .tail => 16 < e.lLen.toNat ∧ e.rem.toNat ≤ 16 ∧ e.split

/-- The invariants of R44, the error codes of R200, and the buffer of an operation inside host memory (R55). -/
structure Engine.Inv (c : Config) (e : Engine) : Prop where
  busy_iff      : e.busy = true ↔ e.phase ≠ .idle
  busy_clear    : e.busy = true → e.done = false ∧ e.err = false
  err_done      : e.err = true → e.done = true
  code_iff      : e.errCode ≠ 0 ↔ e.err = true
  code_known    : e.errCode = 0 ∨ e.errCode = ErrorCause.illegalCmd.code ∨ e.errCode = ErrorCause.busError.code ∨
                    e.errCode = ErrorCause.range.code
  range_ok      : e.busy = true → rangeOk c e.lSrc e.lLen = true
  phase_regs    : e.phaseInv

/-- A good state: the parameters are admitted, every instance of `N_INST` has its registers, memory is canonical and inside the address
space, and every instance meets its invariant. -/
structure State.Inv (s : State) : Prop where
  cfg_wf     : s.cfg.wf = true
  instances  : s.engines.length = s.cfg.bases.length
  target_ok  : s.target < s.engines.length
  mem_wf     : s.mem.wf
  mem_space  : ∀ c ∈ s.mem, c.1 < 2 ^ s.cfg.addrW
  engine_inv : ∀ e ∈ s.engines, e.Inv s.cfg

/-- The platform answers every read of the buffer of the operation in progress with data (R178, R179). -/
def Engine.readable (c : Config) (e : Engine) : Prop := ∀ k < e.lLen.toNat, c.memOk (e.lSrc.toNat + k) = true

/-- The digest the rest of the operation gives when it runs from the registers as they are, over the bytes `B`: the algorithm of R121 taken
up at the current phase. -/
def Engine.due (S : SecretTable) (B : Nat → Byte) (e : Engine) : Word :=
  match e.phase with
  | .idle => e.result
  | .init => digest S B e.lLen e.lSeed
  | .short => finish S e.lLen e.acc0 (shortOperands B e.lLen.toNat)
  | .bulk => finish S e.lLen (foldPhase S B (bulkPhase S B e.lanes)).acc0 (tailOperands B e.lLen.toNat)
  | .fold16 => finish S e.lLen (foldPhase S B e.lanes).acc0 (tailOperands B e.lLen.toNat)
  | .tail => finish S e.lLen e.acc0 (tailOperands B e.lLen.toNat)
  | .fin1 => finish S e.lLen e.acc0 (e.fa, e.fb)
  | .fin2 => fin2 S e.lLen e.fa e.fb

/-- An operation in progress is on track: unless it is raced, what is due is the digest of its buffer (R179). -/
def Engine.OnTrack (S : SecretTable) (m : Memory) (e : Engine) : Prop :=
  e.phase ≠ .idle → e.raced = false → e.due S (e.bytes m) = digest S (e.bytes m) e.lLen e.lSeed

/-- Every operation in progress is on track. -/
def State.OnTrack (s : State) : Prop := ∀ e ∈ s.engines, e.OnTrack s.cfg.secret s.mem

/-- The engine steps left to an operation that is not cut short (R180). -/
def Engine.stepsLeft (e : Engine) : Nat :=
  match e.phase with
  | .idle => 0
  | .init => stepCount e.lLen.toNat
  | .short => 3
  | .bulk => 3 + bulkCount e.rem.toNat + foldCount e.rem.toNat
  | .fold16 => 3 + (if e.rem.toNat ≤ 32 then 1 else 2)
  | .tail => 3
  | .fin1 => 2
  | .fin2 => 1

/-- A run of `n` steps. -/
def run (n : Nat) (s : State) : Answer := Host.Core.run Sys2Proof.core n s

end Sys2Proof.Machine
end

