-- ==== Sys2Proof/Certificates/Slice0/Obligations.lean ====
section
/-! DEFINITION. The statements for the provers, from the numbered rules of spec/ (OBLIGATIONS.json lists them). A statement about an access
is about every state whose `target` names an instance `e` (`s.engine? = some e`); the fields of `State` that are the model's own
(`target`, `rdata`, `free`, `Engine.raced`) are named where they change. -/

open Sys2Proof Sys2Proof.Machine

namespace Sys2Proof.Machine

/-- The reads of the reserved offsets 0x30, 0x38, ..., 0xF8, in that order (R33). -/
def reservedReads : List Instr :=
  [.rdReserved30, .rdReserved38, .rdReserved40, .rdReserved48, .rdReserved50, .rdReserved58, .rdReserved60,
    .rdReserved68, .rdReserved70, .rdReserved78, .rdReserved80, .rdReserved88, .rdReserved90, .rdReserved98,
    .rdReservedA0, .rdReservedA8, .rdReservedB0, .rdReservedB8, .rdReservedC0, .rdReservedC8, .rdReservedD0,
    .rdReservedD8, .rdReservedE0, .rdReservedE8, .rdReservedF0, .rdReservedF8]

/-- The writes of the reserved offsets 0x30, 0x38, ..., 0xF8, in that order (R33). -/
def reservedWrites (v : Word) : List Instr :=
  [.wrReserved30 v, .wrReserved38 v, .wrReserved40 v, .wrReserved48 v, .wrReserved50 v, .wrReserved58 v,
    .wrReserved60 v, .wrReserved68 v, .wrReserved70 v, .wrReserved78 v, .wrReserved80 v, .wrReserved88 v,
    .wrReserved90 v, .wrReserved98 v, .wrReservedA0 v, .wrReservedA8 v, .wrReservedB0 v, .wrReservedB8 v,
    .wrReservedC0 v, .wrReservedC8 v, .wrReservedD0 v, .wrReservedD8 v, .wrReservedE0 v, .wrReservedE8 v,
    .wrReservedF0 v, .wrReservedF8 v]

/-- The descriptors R75 gives a named register. -/
def namedAccesses (v : Word) : List (BitVec 9 × Instr) :=
  [(0x000, .rdCmd), (0x008, .rdStatus), (0x010, .rdSeed), (0x018, .rdSrc), (0x020, .rdLen), (0x028, .rdResult),
    (0x100, .wrCmd v), (0x108, .wrStatus v), (0x110, .wrSeed v), (0x118, .wrSrc v), (0x120, .wrLen v),
    (0x128, .wrResult v)]

/-- The register reads (R151 to R157). -/
def registerReads : List Instr := [.rdCmd, .rdStatus, .rdSeed, .rdSrc, .rdLen, .rdResult] ++ reservedReads

/-- The instructions that give a command to an instance (R70, R161). -/
def commandsOf (w : Word) : List Instr := [.nop, .digest, .illegal w, .wrCmd w]

/-- The next move is agent `a`'s, and `rest` is the schedule after it. -/
def State.movesNext (s : State) (a : Agent) (rest : List Agent) : Prop := s.sched = a :: rest

/-- The next move is host agent `j`'s, its next line is `l`, and `t` is the state once the line is taken off. -/
def State.takesLine (s : State) (j : Nat) (l : HostLine) (t : State) : Prop :=
  ∃ h rest lines, s.sched = .host j :: rest ∧ s.hosts[j]? = some h ∧ h.prog = l :: lines ∧
    t = { s with sched := rest, hosts := s.hosts.set j { h with prog := lines } }

end Sys2Proof.Machine

/-! ### Encoding -/

/-- R71 to R73: the command word, whole and by its fields `OP = w[7:0]` and `RSVD = w[63:8]`; every 64-bit value is one of the three. -/
def Obligations.CommandWordDecodesByFields : Prop :=
  ∀ w : Word,
    (decode (.command w) = if w = 0x0 then .nop else if w = 0x1 then .digest else .illegal w) ∧
    (decode (.command w) =
      if w.extractLsb' 8 56 ≠ 0 then .illegal w
      else if w.extractLsb' 0 8 = 0x00 then .nop
      else if w.extractLsb' 0 8 = 0x01 then .digest
      else .illegal w) ∧
    decode (.command 0x0000000000000101) = .illegal 0x0000000000000101

/-- R75: the descriptor `D = (W << 8) | off`; the admitted descriptors and what they name; a descriptor with `off[2:0] != 0` is not
admitted, and the model refuses it. -/
def Obligations.AccessDescriptorTable : Prop :=
  (∀ (write : Bool) (off : BitVec 8),
    (descriptor write off).toNat = (if write then 0x100 else 0) + off.toNat) ∧
  (∀ v : Word, ∀ p ∈ namedAccesses v, decode (.access p.1 v) = p.2) ∧
  (∀ (v : Word) (k : Nat) (i : Instr), reservedReads[k]? = some i → decode (.access (BitVec.ofNat 9 (0x030 + 8 * k)) v) = i) ∧
  (∀ (v : Word) (k : Nat) (i : Instr), (reservedWrites v)[k]? = some i →
    decode (.access (BitVec.ofNat 9 (0x130 + 8 * k)) v) = i) ∧
  (∀ (d : BitVec 9) (v : Word) (s : State), d.extractLsb' 0 3 ≠ 0 →
    exec (decode (.access d v)) s = .refused .unadmittedAccess)

/-- R70, R71, R75: every well-formed instruction, with every operand value, is what its bytes decode to. The byte layouts are the model's
choice (log entry 11). -/
def Obligations.DecodeOfEncodeIsIdentity : Prop :=
  ∀ i : Instr, i.wf = true → decodeBytes (encodeBytes i) = .ok i

/-- R71, R75, R77: bytes that decode to an instruction are its encoding, and the instruction is well formed. The byte layouts are the
model's choice (log entry 11). -/
def Obligations.EncodeOfDecodeIsIdentity : Prop :=
  ∀ (bs : List Byte) (i : Instr), decodeBytes bs = .ok i → i.wf = true ∧ encodeBytes i = bs

/-- R71, R72, R75: words written out from the spec's encodings (log entry 11 gives the byte layout). -/
def Obligations.SpecWordsDecode : Prop :=
  decodeBytes [0x00, 0x00, 0x00, 0x00, 0x00, 0x00, 0x00, 0x00] = .ok .nop ∧
  decodeBytes [0x01, 0x00, 0x00, 0x00, 0x00, 0x00, 0x00, 0x00] = .ok .digest ∧
  decodeBytes [0x01, 0x01, 0x00, 0x00, 0x00, 0x00, 0x00, 0x00] = .ok (.illegal 0x101) ∧
  decodeBytes [0x08, 0x00] = .ok .rdStatus ∧
  decodeBytes [0xF8, 0x00] = .ok .rdReservedF8 ∧
  decodeBytes [0x10, 0x01, 0xef, 0xcd, 0xab, 0x89, 0x67, 0x45, 0x23, 0x01] = .ok (.wrSeed 0x0123456789abcdef)

/-! ### A step runs the decoded instruction -/

/-- R150, R75, R70, R71: a 64-bit transfer into the window of instance `k` runs the instruction its descriptor decodes to, on instance `k`, and
then binds the value read to the line's name (R84); a command word given to instance `k` runs the instruction it decodes to, on instance `k`.
That a line gives a command word to an instance by its number is the model's choice (DEDUCED, log entry 17). -/
def Obligations.StepRunsDecodedInstruction : Prop :=
  (∀ (s t : State) (j : Nat) (a : BusAccess) (bind : Option Nat) (k : Nat) (off : BitVec 8),
    s.takesLine j (.bus a bind) t → s.cfg.windowOf a.addr = some (k, off) → a.size = 8 →
    step s =
      onNext (exec (decode (.access (descriptor a.write off) (if a.write then a.data else 0))) { t with target := k })
        (fun u => .next (if a.write then u else bindRead j bind u))) ∧
  (∀ (s t : State) (j k : Nat) (w : Word),
    s.takesLine j (.command k w) t → step s = exec (decode (.command w)) { t with target := k })

/-- R84: `poll` repeats the read until its condition holds of the value read: then the line is done, and otherwise it stays the agent's next
line. -/
def Obligations.PollRepeatsUntilCondition : Prop :=
  ∀ (s t u : State) (j addr : Nat) (c : Cond),
    s.takesLine j (.poll addr c) t → busAccess (readAt addr) t = .next u →
    (c.holds u.rdata = true → step s = .next u) ∧
    (c.holds u.rdata = false → step s = .next { u with hosts := s.hosts })

/-- R60: an access to a window of a width other than 64 bits, or at an offset that is not a multiple of 8, is refused. -/
def Obligations.UnsupportedWindowAccessRefused : Prop :=
  ∀ (s t : State) (j : Nat) (a : BusAccess) (bind : Option Nat) (k : Nat) (off : BitVec 8),
    s.takesLine j (.bus a bind) t → s.cfg.windowOf a.addr = some (k, off) → (a.size ≠ 8 ∨ off.toNat % 8 ≠ 0) →
    step s = .refused .unadmittedAccess

/-- R21, R60: in a machine with admitted parameters, `BASE + off` with `off` below 0x100 lies in the window of that instance and no other. -/
def Obligations.WindowsDoNotOverlap : Prop :=
  ∀ (c : Config) (k b : Nat) (off : BitVec 8),
    c.wf = true → c.bases[k]? = some b → c.windowOf (b + off.toNat) = some (k, off)

/-- R84: `wr REG, imm` is the access with descriptor `0x100 + off(REG)` and data `imm`, and `rd REG` the one with descriptor `off(REG)`, on the
instance at that base (R21). R85: `nop`, `digest` and `wait` expand as given, and the condition of `wait` holds of `STATUS` exactly when the
instance is not busy. -/
def Obligations.NotationLinesEncode : Prop :=
  ∀ (s t : State) (j k b : Nat) (r : Reg) (imm : Word) (name : Nat),
    s.cfg.wf = true → s.cfg.bases[k]? = some b →
    (s.takesLine j (lineWr b r imm) t →
      step s = exec (decode (.access (0x100 + r.offset.setWidth 9) imm)) { t with target := k }) ∧
    (s.takesLine j (lineRd b r name) t →
      step s = onNext (exec (decode (.access (r.offset.setWidth 9) 0)) { t with target := k })
        (fun u => .next (bindRead j (some name) u))) ∧
    lineNop b = lineWr b .cmd 0x0 ∧ lineDigest b = lineWr b .cmd 0x1 ∧
    lineWait b = linePoll b .status (.maskEq 0x1 0x0) ∧
    ∀ e : Engine, (Cond.maskEq 0x1 0x0).holds e.statusWord = !e.busy

/-! ### Register accesses -/

/-- R151, R157: a read of `CMD` or of a reserved offset returns 0 and changes nothing else. -/
def Obligations.ZeroRegistersReadZero : Prop :=
  decode (.access 0x000 0) = .rdCmd ∧
  (∀ (k : Nat) (i : Instr), reservedReads[k]? = some i → decode (.access (BitVec.ofNat 9 (0x030 + 8 * k)) 0) = i) ∧
  reservedReads.length = 26 ∧
  ∀ (s : State) (e : Engine), s.engine? = some e →
    ∀ i ∈ Instr.rdCmd :: reservedReads, exec i s = .next { s with rdata := 0x0000000000000000 }

/-- R152: a read of `STATUS` returns `ERRCODE << 8 | ERR << 2 | DONE << 1 | BUSY`; in bits: `BUSY` bit 0, `DONE` bit 1, `ERR` bit 2, `ERRCODE`
bits 15:8, and 0 elsewhere (R23, R28). It changes nothing else. -/
def Obligations.StatusReadReturnsFlags : Prop :=
  decode (.access 0x008 0) = .rdStatus ∧
  ∀ (s : State) (e : Engine), s.engine? = some e →
    ∃ v : Word, exec .rdStatus s = .next { s with rdata := v } ∧
      v = e.errCode.setWidth 64 <<< 8 ||| (BitVec.ofBool e.err).setWidth 64 <<< 2 |||
        (BitVec.ofBool e.done).setWidth 64 <<< 1 ||| (BitVec.ofBool e.busy).setWidth 64 ∧
      v.getLsbD 0 = e.busy ∧ v.getLsbD 1 = e.done ∧ v.getLsbD 2 = e.err ∧ v.extractLsb' 8 8 = e.errCode ∧
      v.extractLsb' 3 5 = 0 ∧ v.extractLsb' 16 48 = 0

/-- R153 to R156: a read of `SEED`, `SRC`, `LEN` or `RESULT` returns the register (not a latched copy) and changes nothing else. -/
def Obligations.OperandReadsReturnRegisters : Prop :=
  decode (.access 0x010 0) = .rdSeed ∧ decode (.access 0x018 0) = .rdSrc ∧ decode (.access 0x020 0) = .rdLen ∧
  decode (.access 0x028 0) = .rdResult ∧
  ∀ (s : State) (e : Engine), s.engine? = some e →
    exec .rdSeed s = .next { s with rdata := e.seed } ∧
    exec .rdSrc s = .next { s with rdata := e.src } ∧
    exec .rdLen s = .next { s with rdata := e.len } ∧
    exec .rdResult s = .next { s with rdata := e.result }

/-- R158 to R160: a write of `SEED`, `SRC` or `LEN` stores all 64 bits, busy or not, and changes nothing else. -/
def Obligations.OperandWritesStoreAllBits : Prop :=
  ∀ (s : State) (e : Engine) (v : Word), s.engine? = some e →
    decode (.access 0x110 v) = .wrSeed v ∧ decode (.access 0x118 v) = .wrSrc v ∧ decode (.access 0x120 v) = .wrLen v ∧
    exec (.wrSeed v) s = .next { s with engines := s.engines.set s.target { e with seed := v } } ∧
    exec (.wrSrc v) s = .next { s with engines := s.engines.set s.target { e with src := v } } ∧
    exec (.wrLen v) s = .next { s with engines := s.engines.set s.target { e with len := v } }

/-- R166: a write of `STATUS`, `RESULT` or a reserved offset changes no state. -/
def Obligations.ReadOnlyWritesIgnored : Prop :=
  ∀ (s : State) (e : Engine) (v : Word), s.engine? = some e →
    decode (.access 0x108 v) = .wrStatus v ∧ decode (.access 0x128 v) = .wrResult v ∧
    (∀ (k : Nat) (i : Instr), (reservedWrites v)[k]? = some i →
      decode (.access (BitVec.ofNat 9 (0x130 + 8 * k)) v) = i) ∧
    (reservedWrites v).length = 26 ∧
    ∀ i ∈ Instr.wrStatus v :: Instr.wrResult v :: reservedWrites v, exec i s = .next s

/-- R60, R75, I3: an access that is not admitted is refused, in every state. -/
def Obligations.UnadmittedAccessRefused : Prop :=
  ∀ (write : Bool) (off : BitVec 8) (data : Word) (s : State),
    exec (.unadmittedAccess write off data) s = .refused .unadmittedAccess

/-! ### Commands -/

/-- R161, R230: a command given while `BUSY = 1`, whatever its word, leaves no trace. -/
def Obligations.CommandWhileBusyIgnored : Prop :=
  ∀ (s : State) (e : Engine) (w : Word), s.engine? = some e → e.busy = true →
    ∀ i ∈ commandsOf w, exec i s = .next s

/-- R162: NOP changes no state, idle or busy. -/
def Obligations.NopChangesNothing : Prop :=
  decode (.command 0x0000000000000000) = .nop ∧
  ∀ (s : State) (e : Engine), s.engine? = some e → exec .nop s = .next s

/-- R163: DIGEST while idle with `range_ok` latches the operands and starts an operation; `RESULT` and every other register keep their values.
`raced` is the model's own field and takes some value. -/
def Obligations.DigestAcceptedStartsOperation : Prop :=
  decode (.command 0x0000000000000001) = .digest ∧
  ∀ (s : State) (e : Engine), s.engine? = some e → e.busy = false →
    (e.len = 0 ∨ e.src.toNat + e.len.toNat ≤ 2 ^ s.cfg.addrW) →
    ∃ r : Bool, exec .digest s = .next { s with
      engines := s.engines.set s.target { e with
        busy := true, done := false, err := false, errCode := 0x00, phase := .init,
        lSeed := e.seed, lSrc := e.src, lLen := e.len, raced := r } }

/-- R164: DIGEST while idle with `LEN > 0` and `SRC + LEN > 2^ADDR_W` completes with the error RANGE; nothing starts and nothing else changes (R203).
That the internal registers are among what does not change is the model's choice where D33 differs (log entry 18). -/
def Obligations.DigestOutOfRangeRefused : Prop :=
  decode (.command 0x0000000000000001) = .digest ∧
  ∀ (s : State) (e : Engine), s.engine? = some e → e.busy = false →
    0 < e.len.toNat → 2 ^ s.cfg.addrW < e.src.toNat + e.len.toNat →
    exec .digest s = .next { s with
      engines := s.engines.set s.target { e with
        busy := false, done := true, err := true, errCode := 0x03, phase := .idle } }

/-- R165: an illegal command while idle completes with the error ILLEGAL_CMD; nothing else changes. That the internal registers are among what
does not change is the model's choice where D33 differs (log entry 18). -/
def Obligations.IllegalCommandReported : Prop :=
  (∀ w : Word, w ≠ 0x0 → w ≠ 0x1 → decode (.command w) = .illegal w) ∧
  ∀ (s : State) (e : Engine) (w : Word), s.engine? = some e → e.busy = false →
    exec (.illegal w) s = .next { s with
      engines := s.engines.set s.target { e with
        busy := false, done := true, err := true, errCode := 0x01, phase := .idle } }

/-- R161: a write of `w` to `CMD` has the effect of the command `w` decodes to, and it always completes; while idle each class of word has its
own effect (R162 to R165). What the errors leave of the internal registers is the model's choice where D33 differs (log entry 18). -/
def Obligations.CmdWriteDispatches : Prop :=
  ∀ (s : State) (e : Engine) (w : Word), s.engine? = some e →
    decode (.access 0x100 w) = .wrCmd w ∧
    exec (.wrCmd w) s = exec (decode (.command w)) s ∧
    (∃ f : Engine, exec (.wrCmd w) s = .next { s with engines := s.engines.set s.target f }) ∧
    (e.busy = true → exec (.wrCmd w) s = .next s) ∧
    (w = 0x0 → exec (.wrCmd w) s = .next s) ∧
    (e.busy = false → w = 0x1 → e.len ≠ 0 → 2 ^ s.cfg.addrW < e.src.toNat + e.len.toNat →
      exec (.wrCmd w) s = .next { s with engines := s.engines.set s.target (e.raiseError .range) }) ∧
    (e.busy = false → w = 0x1 → (e.len = 0 ∨ e.src.toNat + e.len.toNat ≤ 2 ^ s.cfg.addrW) →
      ∃ r : Bool, exec (.wrCmd w) s = .next { s with engines := s.engines.set s.target (e.start r) }) ∧
    (e.busy = false → w ≠ 0x0 → w ≠ 0x1 →
      exec (.wrCmd w) s = .next { s with engines := s.engines.set s.target (e.raiseError .illegalCmd) })

/-! ### Frames -/

/-- R45, R51, R39: an instruction that completes leaves memory, the parameters (the secret table among them), the host agents, the schedule and
every other instance as they were. -/
def Obligations.AccessTouchesOnlyItsInstance : Prop :=
  ∀ (i : Instr) (s t : State), exec i s = .next t →
    t.cfg = s.cfg ∧ t.mem = s.mem ∧ (∀ a, t.mem.read a = s.mem.read a) ∧ t.hosts = s.hosts ∧ t.sched = s.sched ∧
    t.target = s.target ∧ t.free = s.free ∧ t.engines.length = s.engines.length ∧
    ∀ k ≠ s.target, t.engines[k]? = s.engines[k]?

/-- R29 to R32, R34, R62: on the instance it addresses, an instruction that completes never changes `RESULT` or a datapath register; it changes
`SEED`, `SRC`, `LEN` only when it writes that register, and the flags, `PHASE` and the latched operands only when it is a command. A read changes
no register, and only a read changes the value returned to the host. That a failed command keeps the datapath registers is the model's choice
where D33 differs (log entry 18). -/
def Obligations.AccessFrameOnItsInstance : Prop :=
  ∀ (i : Instr) (s t : State) (e f : Engine), exec i s = .next t → s.engine? = some e → t.engine? = some f →
    f.result = e.result ∧ f.acc0 = e.acc0 ∧ f.acc1 = e.acc1 ∧ f.acc2 = e.acc2 ∧ f.fa = e.fa ∧ f.fb = e.fb ∧
    f.off = e.off ∧ f.rem = e.rem ∧
    ((∀ v, i ≠ .wrSeed v) → f.seed = e.seed) ∧
    ((∀ v, i ≠ .wrSrc v) → f.src = e.src) ∧
    ((∀ v, i ≠ .wrLen v) → f.len = e.len) ∧
    ((∀ w, i ∉ commandsOf w) →
      f.busy = e.busy ∧ f.done = e.done ∧ f.err = e.err ∧ f.errCode = e.errCode ∧ f.phase = e.phase ∧
      f.lSeed = e.lSeed ∧ f.lSrc = e.lSrc ∧ f.lLen = e.lLen ∧ f.raced = e.raced) ∧
    (i ∈ registerReads → f = e) ∧ (i ∉ registerReads → t.rdata = s.rdata)

/-- R177, R32: in any step, `RESULT` of an instance changes only by the completion of that instance's operation, or by its reset. -/
def Obligations.ResultWrittenOnlyAtCompletion : Prop :=
  ∀ (s t : State) (k : Nat) (e f : Engine),
    step s = .next t → s.engines[k]? = some e → t.engines[k]? = some f → f.result ≠ e.result →
    ((nextAgent s).1 = some (.engine k) ∧ e.phase = .fin2 ∧ f.statusWord = 0x2) ∨
    ((nextAgent s).1 = some (.reset k) ∧ f.result = 0)

/-- R25: in any step, `DONE` falls only when a DIGEST starts an operation or by a reset; it rises only when a command completes. -/
def Obligations.DoneChangesOnlyByItsRules : Prop :=
  ∀ (s t : State) (k : Nat) (e f : Engine),
    step s = .next t → s.engines[k]? = some e → t.engines[k]? = some f →
    (e.done = true → f.done = false →
      (e.busy = false ∧ f.busy = true ∧ f.phase = .init) ∨ (nextAgent s).1 = some (.reset k)) ∧
    (e.done = false → f.done = true →
      f.busy = false ∧ f.phase = .idle ∧
        (((nextAgent s).1 = some (.engine k) ∧ (e.phase = .fin2 ∨ f.errCode = 0x02)) ∨
          (e.busy = false ∧ (f.errCode = 0x01 ∨ f.errCode = 0x03))))

/-- R24: in any step, `BUSY` falls only by the completion or the abort of the operation or by a reset, and rises only by an accepted DIGEST. -/
def Obligations.BusyChangesOnlyByItsRules : Prop :=
  ∀ (s t : State) (k : Nat) (e f : Engine),
    step s = .next t → s.engines[k]? = some e → t.engines[k]? = some f →
    (e.busy = true → f.busy = false →
      ((nextAgent s).1 = some (.engine k) ∧ f.phase = .idle ∧ (e.phase = .fin2 ∨ e.readsOk s.cfg = false)) ∨
      (nextAgent s).1 = some (.reset k)) ∧
    (e.busy = false → f.busy = true →
      f.phase = .init ∧ f.lSeed = e.seed ∧ f.lSrc = e.src ∧ f.lLen = e.len ∧ rangeOk s.cfg e.src e.len = true)

/-- R51: in any step, memory changes only by a `memwr` line of a host agent: no engine step, reset or register access writes it. -/
def Obligations.MemoryWrittenOnlyByHosts : Prop :=
  ∀ (s t : State), step s = .next t → t.mem ≠ s.mem →
    ∃ (j : Nat) (h : HostAgent) (addr : Nat) (bytes : List Byte) (lines : List HostLine),
      (nextAgent s).1 = some (.host j) ∧ s.hosts[j]? = some h ∧ h.prog = .memwr addr bytes :: lines

/-- R45, R210: an engine step or a reset of instance `k` leaves every other instance, memory and the host agents as they were, and the registers
instance `k` gets depend on no other instance's registers. -/
def Obligations.InstancesDoNotInterfere : Prop :=
  ∀ (s t : State) (k : Nat) (a : Agent), (a = .engine k ∨ a = .reset k) → move a s = .next t →
    t.mem = s.mem ∧ t.hosts = s.hosts ∧ t.cfg = s.cfg ∧ (∀ j ≠ k, t.engines[j]? = s.engines[j]?) ∧
    ∀ s' t' : State, s'.cfg = s.cfg → s'.mem = s.mem → s'.free = s.free → s'.engines[k]? = s.engines[k]? →
      move a s' = .next t' → t'.engines[k]? = t.engines[k]?

/-! ### Datapath -/

/-- R100, R101: the product is exact; MUM is its low and its high half, and is symmetric. -/
def Obligations.MumGivesExactProductHalves : Prop :=
  ∀ a b : Word,
    (mul128 a b).toNat = a.toNat * b.toNat ∧
    (mum a b).1.toNat + 2 ^ 64 * (mum a b).2.toNat = a.toNat * b.toNat ∧ mum a b = mum b a ∧
    mum 0xffffffffffffffff 0xffffffffffffffff = (0x0000000000000001, 0xfffffffffffffffe) ∧
    (mul128 0x8000000000000000 2).toNat = 2 ^ 64 ∧
    mum 0x2d358dccaa6c78a5 0x8bb84b93962eacc9 = (0xd22da4200bdf958d, 0x18ac9fd4cc746524)

/-- R102: MIX is the xor of the two halves, with its corner cases. -/
def Obligations.MixFoldsTheProduct : Prop :=
  ∀ a b : Word,
    (mix a b).toNat = (a.toNat * b.toNat % 2 ^ 64) ^^^ (a.toNat * b.toNat / 2 ^ 64) ∧
    mix 0 b = 0 ∧ mix a 0 = 0 ∧ mix 1 b = b ∧ mix a b = mix b a ∧
    mix 0xffffffffffffffff 0xffffffffffffffff = 0xffffffffffffffff ∧
    mix 0xffffffffffffffff 1 = 0xffffffffffffffff ∧ mix 0xffffffffffffffff 2 = 0xffffffffffffffff ∧
    mix 0x8000000000000000 2 = 1 ∧ mix 0x0000000100000000 0x0000000100000000 = 1 ∧
    mix 0x0123456789abcdef 0xfedcba9876543210 = 0x2317228f48165bb2

/-- R52: `MemRead` is little-endian at every width: its byte `j` is the byte at offset `k + j`; so R8, R4 and a byte agree (R54, R106, R107). -/
def Obligations.ReadsAreLittleEndian : Prop :=
  ∀ (B : Nat → Byte) (k n : Nat),
    (∀ j < n, (memRead B k n).extractLsb' (8 * j) 8 = B (k + j)) ∧
    (∀ j < 8, (r8 B k).extractLsb' (8 * j) 8 = B (k + j)) ∧
    (r4 B k).extractLsb' 32 32 = 0 ∧ (r8 B k).extractLsb' 0 32 = (r4 B k).extractLsb' 0 32 ∧
    (r4 B k).extractLsb' 0 8 = B k

/-- R108: the 3-byte packing, by length; bits 63:24 are 0. -/
def Obligations.ThreeBytePacking : Prop :=
  ∀ B : Nat → Byte,
    (r3 B 1).toNat = (B 0).toNat * 0x010101 ∧
    (r3 B 2).toNat = (B 0).toNat * 0x10000 + (B 1).toNat * 0x100 + (B 1).toNat ∧
    (r3 B 3).toNat = (B 0).toNat * 0x10000 + (B 1).toNat * 0x100 + (B 2).toNat ∧
    ∀ n, (r3 B n).extractLsb' 24 40 = 0

/-! ### The digest -/

/-- R120, R56: the digest depends on the bytes `B[0 .. n-1]`, the length, the seed and the table alone: not on where the buffer lies, nor on any
byte outside it. -/
def Obligations.DigestDependsOnlyOnBuffer : Prop :=
  ∀ (S : SecretTable) (B C : Nat → Byte) (n seed : Word),
    (∀ k < n.toNat, B k = C k) → digest S B n seed = digest S C n seed

/-- R137, R128: the digest of the empty input, for every seed and every table; and its value for seed 0 and the default table. -/
def Obligations.EmptyInputDigest : Prop :=
  ∀ (S : SecretTable) (B : Nat → Byte) (seed : Word),
    digest SecretTable.default B 0 0 = 0x93228a4de0eec5a2 ∧
    digest S B 0 seed =
      mix ((mum S.s1 (seed ^^^ mix (seed ^^^ S.s0) S.s1)).1 ^^^ S.s0)
        ((mum S.s1 (seed ^^^ mix (seed ^^^ S.s0) S.s1)).2 ^^^ S.s1)

/-- R124: for `n >= 48` the bulk phase runs `floor(n / 48)` rounds and leaves `rem = n mod 48`, the bytes before it consumed. -/
def Obligations.BulkPhaseRunsAllRounds : Prop :=
  ∀ (S : SecretTable) (B : Nat → Byte) (acc n : Word), 48 ≤ n.toNat →
    bulkPhase S B (longStart acc n) = mergeLanes ((bulkRound S B)^[n.toNat / 48] (longStart acc n)) ∧
    (bulkPhase S B (longStart acc n)).rem.toNat = n.toNat % 48 ∧
    (bulkPhase S B (longStart acc n)).off.toNat = n.toNat - n.toNat % 48

/-- R127: with `rem < 48` the fold runs 0, 1 or 2 times, as `rem` is at most 16, at most 32, or more, and leaves `rem <= 16`. -/
def Obligations.FoldRunsAtMostTwice : Prop :=
  ∀ (S : SecretTable) (B : Nat → Byte) (l : Lanes), l.rem.toNat < 48 →
    foldPhase S B l =
      (foldRound S B)^[if l.rem.toNat ≤ 16 then 0 else if l.rem.toNat ≤ 32 then 1 else 2] l ∧
    (foldPhase S B l).rem.toNat ≤ 16 ∧
    (16 < l.rem.toNat → 1 ≤ (foldPhase S B l).rem.toNat)

/-- R122, R133: a seed equal to `S[0]` mixes to itself; an operand equal to `S[1]` makes the product 0, and the digest `MIX(S[0] ^ n, S[1])`. -/
def Obligations.MixingCorners : Prop :=
  ∀ (S : SecretTable) (n acc fb seed : Word),
    seedMix S S.s0 = S.s0 ∧ seedMix S 0 = mix S.s0 S.s1 ∧
    seedMix S seed = seed ^^^ mix (seed ^^^ S.s0) S.s1 ∧
    fin1 S acc S.s1 fb = (0, 0) ∧ finish S n acc (S.s1, fb) = mix (S.s0 ^^^ n) S.s1

/-! ### The sequencer -/

/-- R171: the INIT step. -/
def Obligations.InitStepChoosesBand : Prop :=
  ∀ (s : State) (k : Nat) (e : Engine) (rest : List Agent),
    s.movesNext (.engine k) rest → s.engines[k]? = some e → e.phase = .init →
    ∃ f : Engine, step s = .next { s with sched := rest, engines := s.engines.set k f, free := s.free + drawsPerMove } ∧
      f.acc0 = e.lSeed ^^^ mix (e.lSeed ^^^ s.cfg.secret.s0) s.cfg.secret.s1 ∧
      (e.lLen.toNat ≤ 16 → f = { e with acc0 := f.acc0, phase := .short }) ∧
      (16 < e.lLen.toNat → e.lLen.toNat < 48 →
        f = { e with acc0 := f.acc0, off := 0, rem := e.lLen, phase := .fold16 }) ∧
      (48 ≤ e.lLen.toNat →
        f = { e with acc0 := f.acc0, acc1 := f.acc0, acc2 := f.acc0, off := 0, rem := e.lLen, phase := .bulk })

/-- R172, R130: the SHORT step: the operands of the band, and then FIN1. With length 0 it reads nothing and cannot abort; otherwise its reads are
to be answered. -/
def Obligations.ShortStepSelectsOperands : Prop :=
  ∀ (s : State) (k : Nat) (e : Engine) (rest : List Agent),
    s.movesNext (.engine k) rest → s.engines[k]? = some e → e.phase = .short →
    (e.lLen.toNat = 0 ∨ e.readsOk s.cfg = true) → e.lLen.toNat ≤ 16 →
    ∃ f : Engine, step s = .next { s with sched := rest, engines := s.engines.set k f, free := s.free + drawsPerMove } ∧
      f = { e with fa := f.fa, fb := f.fb, phase := .fin1 } ∧
      (e.lLen.toNat = 0 → e.needs = [] ∧ f.fa = 0 ∧ f.fb = 0) ∧
      (1 ≤ e.lLen.toNat → e.lLen.toNat ≤ 3 → f.fa = r3 (e.bytes s.mem) e.lLen.toNat ∧ f.fb = 0) ∧
      (4 ≤ e.lLen.toNat →
        let B := e.bytes s.mem
        let n := e.lLen.toNat
        let q := if n < 8 then 0 else if n < 16 then 4 else 8
        f.fa = r4 B 0 <<< 32 ||| r4 B q ∧ f.fb = r4 B (n - 4) <<< 32 ||| r4 B (n - 4 - q))

/-- R173: the BULK step, its reads answered: one round; below 48 bytes left the lanes merge, and the next step is FOLD16 or TAIL. -/
def Obligations.BulkStepRunsOneRound : Prop :=
  ∀ (s : State) (k : Nat) (e : Engine) (rest : List Agent),
    s.movesNext (.engine k) rest → s.engines[k]? = some e → e.phase = .bulk → e.readsOk s.cfg = true →
    48 ≤ e.rem.toNat →
    let B := e.bytes s.mem
    let S := s.cfg.secret
    let o := e.off.toNat
    let a0 := mix (r8 B o ^^^ S.s1) (r8 B (o + 8) ^^^ e.acc0)
    let a1 := mix (r8 B (o + 16) ^^^ S.s2) (r8 B (o + 24) ^^^ e.acc1)
    let a2 := mix (r8 B (o + 32) ^^^ S.s3) (r8 B (o + 40) ^^^ e.acc2)
    let r := e.rem - 48
    step s = .next { s with
      sched := rest
      free := s.free + drawsPerMove
      engines := s.engines.set k { e with
        acc0 := if r.toNat < 48 then a0 ^^^ a1 ^^^ a2 else a0
        acc1 := a1
        acc2 := a2
        off := e.off + 48
        rem := r
        phase := if 48 ≤ r.toNat then .bulk else if 16 < r.toNat then .fold16 else .tail } }

/-- R174: the FOLD16 step, its reads answered. -/
def Obligations.FoldStepFoldsSixteenBytes : Prop :=
  ∀ (s : State) (k : Nat) (e : Engine) (rest : List Agent),
    s.movesNext (.engine k) rest → s.engines[k]? = some e → e.phase = .fold16 → e.readsOk s.cfg = true →
    16 < e.rem.toNat →
    step s = .next { s with
      sched := rest
      free := s.free + drawsPerMove
      engines := s.engines.set k { e with
        acc0 := mix (r8 (e.bytes s.mem) e.off.toNat ^^^ s.cfg.secret.s1)
          (r8 (e.bytes s.mem) (e.off.toNat + 8) ^^^ e.acc0)
        off := e.off + 16
        rem := e.rem - 16
        phase := if 16 < (e.rem - 16).toNat then .fold16 else .tail } }

/-- R175: the TAIL step, its reads answered: the last 16 bytes of the buffer. -/
def Obligations.TailStepTakesLastBytes : Prop :=
  ∀ (s : State) (k : Nat) (e : Engine) (rest : List Agent),
    s.movesNext (.engine k) rest → s.engines[k]? = some e → e.phase = .tail → e.readsOk s.cfg = true →
    16 < e.lLen.toNat →
    step s = .next { s with
      sched := rest
      free := s.free + drawsPerMove
      engines := s.engines.set k { e with
        fa := r8 (e.bytes s.mem) (e.lLen.toNat - 16)
        fb := r8 (e.bytes s.mem) (e.lLen.toNat - 8)
        phase := .fin1 } }

/-- R176: the FIN1 step. -/
def Obligations.Fin1StepKeepsProduct : Prop :=
  ∀ (s : State) (k : Nat) (e : Engine) (rest : List Agent),
    s.movesNext (.engine k) rest → s.engines[k]? = some e → e.phase = .fin1 →
    step s = .next { s with
      sched := rest
      free := s.free + drawsPerMove
      engines := s.engines.set k { e with
        fa := (mum (e.fa ^^^ s.cfg.secret.s1) (e.fb ^^^ e.acc0)).1
        fb := (mum (e.fa ^^^ s.cfg.secret.s1) (e.fb ^^^ e.acc0)).2
        phase := .fin2 } }

/-- R177: the FIN2 step. `RESULT` of a raced operation is some value (R58, R66); the flag `raced` and when it is set are the model's choice (log
entries 7, 8, 9), and so is following R177 on the internal registers where D33 differs (log entry 18). -/
def Obligations.Fin2StepCompletes : Prop :=
  ∀ (s : State) (k : Nat) (e : Engine) (rest : List Agent),
    s.movesNext (.engine k) rest → s.engines[k]? = some e → e.phase = .fin2 →
    ∃ v : Word,
      step s = .next { s with
        sched := rest
        free := s.free + drawsPerMove
        engines := s.engines.set k { e with
          result := v, busy := false, done := true, err := false, errCode := 0x00, phase := .idle } } ∧
      (e.raced = false →
        v = mix (e.fa ^^^ s.cfg.secret.s0 ^^^ e.lLen) (e.fb ^^^ s.cfg.secret.s1))

/-- R178, R202, R203: a step that uses a byte whose read is answered with an error aborts: only the flags, `PHASE` and the internal registers
change, and those registers are any value (R178, and I4 for `L_SEED`, `L_SRC` and `L_LEN`). -/
def Obligations.BusErrorAborts : Prop :=
  ∀ (s : State) (k o : Nat) (e : Engine) (rest : List Agent),
    s.movesNext (.engine k) rest → s.engines[k]? = some e → o ∈ e.needs → s.cfg.memOk (e.lSrc.toNat + o) = false →
    ∃ ls lr ll a0 a1 a2 fa fb off rem : Word,
      step s = .next { s with
        sched := rest
        free := s.free + drawsPerMove
        engines := s.engines.set k { e with
          busy := false, done := true, err := true, errCode := 0x02, phase := .idle,
          lSeed := ls, lSrc := lr, lLen := ll, acc0 := a0, acc1 := a1, acc2 := a2, fa := fa, fb := fb, off := off, rem := rem } }

/-- R220, R221: the reset of instance `k`: the window registers and the flags are 0, `PHASE` is IDLE, the secret table and everything else is
unchanged, and the internal registers become unspecified. -/
def Obligations.ResetEventClearsInstance : Prop :=
  ∀ (s : State) (k : Nat) (e : Engine) (rest : List Agent),
    s.movesNext (.reset k) rest → s.engines[k]? = some e →
    ∃ f : Engine, step s = .next { s with sched := rest, engines := s.engines.set k f, free := s.free + drawsPerMove } ∧
      f.statusWord = 0x0000000000000000 ∧ f.seed = 0x0000000000000000 ∧ f.src = 0x0000000000000000 ∧
      f.len = 0x0000000000000000 ∧ f.result = 0x0000000000000000 ∧ f.phase = .idle

/-- R136, R57: in a good state every byte an engine step uses lies in the buffer of its operation, and in host memory (R55). -/
def Obligations.ReadsStayInsideBuffer : Prop :=
  ∀ (c : Config) (e : Engine), e.Inv c → ∀ o ∈ e.needs,
    o < e.lLen.toNat ∧ e.lSrc.toNat + o < 2 ^ c.addrW

/-- R41: the values of `STATUS` in a good state. -/
def Obligations.StatusTakesSixValues : Prop :=
  ∀ (c : Config) (e : Engine), e.Inv c →
    e.statusWord ∈ ([0x0000000000000000, 0x0000000000000001, 0x0000000000000002, 0x0000000000000106,
      0x0000000000000206, 0x0000000000000306] : List Word)

/-- R44: the state right after reset is a good state. The parameters, the memory contents and the internal registers of `State.reset` are the
model's choice (log entries 1, 3, 6). -/
def Obligations.ResetStateIsGood : Prop := State.reset.Inv

/-- R44, R35, R38, R40: every step of every agent keeps a good state good, and changes no parameter. -/
def Obligations.StepKeepsGoodState : Prop :=
  ∀ s t : State, s.Inv → step s = .next t → t.Inv ∧ t.cfg = s.cfg

/-- R180: an engine step of a good state takes one off the steps left, or ends the operation. -/
def Obligations.EngineStepsCountDown : Prop :=
  ∀ (s : State) (k : Nat) (e f : Engine), s.engines[k]? = some e → e.Inv s.cfg → e.phase ≠ .idle →
    (engineMove k s).engines[k]? = some f →
    (f.stepsLeft + 1 = e.stepsLeft ∧ (f.phase = .idle ↔ e.phase = .fin2)) ∨
      (f.stepsLeft = 0 ∧ f.phase = .idle ∧ f.errCode = 0x02)

/-- R179: every step of every agent keeps every operation in progress on track to the digest of its buffer: host accesses, other instances,
resets and writes elsewhere in memory do not disturb it. -/
def Obligations.AnyInterleavingStaysOnTrack : Prop :=
  ∀ s t : State, s.Inv → s.OnTrack → step s = .next t → t.OnTrack

/-- R179, R163: an operation that starts is on track, and one that is on track and completes leaves the digest of its buffer in `RESULT`. -/
def Obligations.CompletionGivesDigest : Prop :=
  ∀ (s : State) (k : Nat) (e : Engine) (rest : List Agent),
    s.Inv → s.OnTrack → s.movesNext (.engine k) rest → s.engines[k]? = some e → e.phase = .fin2 → e.raced = false →
    ∃ (t : State) (f : Engine), step s = .next t ∧ t.engines[k]? = some f ∧
      f.result = digest s.cfg.secret (e.bytes s.mem) e.lLen e.lSeed ∧ f.statusWord = 0x2

/-- R179, R180: an operation whose buffer is readable and not written completes after exactly the steps of R180, with the digest of its buffer in
`RESULT`. -/
def Obligations.OperationComputesDigest : Prop :=
  ∀ (s : State) (k : Nat) (e : Engine) (rest : List Agent),
    s.Inv → s.engines[k]? = some e → e.phase = .init → e.raced = false → e.readable s.cfg →
    s.sched = List.replicate (stepCount e.lLen.toNat) (.engine k) ++ rest →
    ∃ (t : State) (f : Engine), run (stepCount e.lLen.toNat) s = .next t ∧ t.sched = rest ∧ t.mem = s.mem ∧
      t.engines[k]? = some f ∧ f.phase = .idle ∧ f.statusWord = 0x0000000000000002 ∧
      f.result = digest s.cfg.secret (e.bytes s.mem) e.lLen e.lSeed ∧
      f.seed = e.seed ∧ f.src = e.src ∧ f.len = e.len ∧ ∀ j ≠ k, t.engines[j]? = s.engines[j]?

/-- R178: an operation left to run ends within the steps of R180, and it ends with `BUS_ERROR` if and only if some byte of its buffer is
unreadable; then `RESULT` is unchanged. -/
def Obligations.AbortsIffBufferUnreadable : Prop :=
  ∀ (s : State) (k : Nat) (e : Engine) (rest : List Agent),
    s.Inv → s.engines[k]? = some e → e.phase = .init →
    s.sched = List.replicate (stepCount e.lLen.toNat) (.engine k) ++ rest →
    ∃ (t : State) (f : Engine), run (stepCount e.lLen.toNat) s = .next t ∧ t.engines[k]? = some f ∧ f.phase = .idle ∧
      (f.statusWord = 0x206 ↔ ¬ e.readable s.cfg) ∧ (f.statusWord = 0x2 ↔ e.readable s.cfg) ∧
      (¬ e.readable s.cfg → f.result = e.result)

/-! ### Memory writes of the hosts -/

/-- R84, R65(b), R66: a `memwr` line inside host memory and outside every window writes its bytes and no other; a busy instance whose buffer it
touches is raced; the range is not yet visible for sure; and nothing else changes. How the model records the last two is its choice (log
entries 7, 8), and so is that the bytes land where `MemOk` is false (log entry 10). -/
def Obligations.MemwrWritesItsBytes : Prop :=
  ∀ (s t : State) (j addr : Nat) (bytes : List Byte) (h : HostAgent),
    s.mem.wf → s.takesLine j (.memwr addr bytes) t → t.hosts[j]? = some h →
    addr + bytes.length ≤ 2 ^ s.cfg.addrW →
    (∀ b ∈ s.cfg.bases, Region.overlaps ⟨addr, bytes.length⟩ ⟨b, 0x100⟩ = false) →
    ∃ m : Memory, step s = .next { t with
        mem := m
        engines := s.engines.map (fun e =>
          { e with raced := e.raced || (e.busy && Region.overlaps ⟨addr, bytes.length⟩ ⟨e.lSrc.toNat, e.lLen.toNat⟩) })
        hosts := t.hosts.set j { h with unfenced := ⟨addr, bytes.length⟩ :: h.unfenced } } ∧
      (∀ i < bytes.length, m.read (addr + i) = bytes.getD i 0) ∧
      ∀ a, (a < addr ∨ addr + bytes.length ≤ a) → m.read a = s.mem.read a

/-- R84, R50, R60: where a `memwr` line stops: past the end of host memory with a fault, and into a window with a refusal. The two stops are
the model's choice (log entry 10). -/
def Obligations.MemwrStopsOutsideMemory : Prop :=
  ∀ (s t : State) (j addr : Nat) (bytes : List Byte),
    s.takesLine j (.memwr addr bytes) t →
    (2 ^ s.cfg.addrW < addr + bytes.length → step s = .fault .noSuchAddress) ∧
    (addr + bytes.length ≤ 2 ^ s.cfg.addrW →
      (∃ b ∈ s.cfg.bases, Region.overlaps ⟨addr, bytes.length⟩ ⟨b, 0x100⟩ = true) →
      step s = .refused .memwrToWindow)

/-- R65(b), R232, I17: an operation starts raced exactly when an agent has written a byte of its buffer since that agent's last `fence`, or the
buffer covers memory whose reads have side effects (R58); a `fence` line clears the first cause for its agent. `raced` and `unfenced` are the
model's choice (log entries 8, 9). -/
def Obligations.VisibilityDecidesRace : Prop :=
  (∀ (s : State) (e f : Engine) (t : State), s.engine? = some e → e.busy = false → rangeOk s.cfg e.src e.len = true →
    exec .digest s = .next t → t.engine? = some f →
    (f.raced = true ↔
      (∃ h ∈ s.hosts, ∃ r ∈ h.unfenced, ∃ a, r.contains a = true ∧ (bufferRegion e.src e.len).contains a = true) ∨
      (∃ r ∈ s.cfg.nonIdempotent, ∃ a, r.contains a = true ∧ (bufferRegion e.src e.len).contains a = true))) ∧
  (∀ (s t : State) (j : Nat) (h : HostAgent), s.takesLine j .fence t → t.hosts[j]? = some h →
    step s = .next { t with hosts := t.hosts.set j { h with unfenced := [] } })
end

