-- ==== Sys2Proof/Laws/Digest.lean ====
section
/-! SUPPORT. The laws of the byte reader and of the rounds: what a read depends on, and how a round moves through the buffer. -/

namespace Sys2Proof.Machine

/-- `n` bytes make a value below `2^(8n)`. -/
theorem leRead_lt (B : Nat → Byte) (k n : Nat) : leRead B k n < 2 ^ (8 * n) := by
  induction n generalizing k with
  | zero => simp [leRead]
  | succ n ih =>
    have h := ih (k + 1)
    have := (B k).isLt
    simp only [leRead]
    rw [show 8 * (n + 1) = 8 + 8 * n by ring, pow_add]
    omega

/-- A read depends only on the bytes it covers. -/
theorem leRead_congr {B C : Nat → Byte} {k n : Nat} (h : ∀ j, k ≤ j → j < k + n → B j = C j) :
    leRead B k n = leRead C k n := by
  induction n generalizing k with
  | zero => rfl
  | succ n ih =>
    simp only [leRead]
    rw [h k (by omega) (by omega), ih fun j h1 h2 => h j (by omega) (by omega)]

/-- R8 depends only on the bytes it covers. -/
theorem r8_congr {B C : Nat → Byte} {k n : Nat} (h : ∀ j < n, B j = C j) (hk : k + 8 ≤ n) : r8 B k = r8 C k := by
  simp only [r8, memRead]
  rw [leRead_congr fun j _ h2 => h j (by omega)]

/-- R4 depends only on the bytes it covers. -/
theorem r4_congr {B C : Nat → Byte} {k n : Nat} (h : ∀ j < n, B j = C j) (hk : k + 4 ≤ n) : r4 B k = r4 C k := by
  simp only [r4, memRead]
  rw [leRead_congr fun j _ h2 => h j (by omega)]

/-- `q = 4 * floor(n / 8)` (R130). -/
theorem pairOffset_eq (n : Nat) : pairOffset n = n / 8 * 4 := by
  simp [pairOffset, Nat.shiftRight_eq_div_pow, Nat.shiftLeft_eq]

/-- A bulk round depends only on the 48 bytes from its offset. -/
theorem bulkRound_congr {S : SecretTable} {B C : Nat → Byte} {n : Nat} {l : Lanes} (h : ∀ j < n, B j = C j)
    (hk : l.off.toNat + 48 ≤ n) : bulkRound S B l = bulkRound S C l := by
  simp only [bulkRound]
  rw [r8_congr h (k := l.off.toNat) (by omega), r8_congr h (k := l.off.toNat + 8) (by omega),
    r8_congr h (k := l.off.toNat + 16) (by omega), r8_congr h (k := l.off.toNat + 24) (by omega),
    r8_congr h (k := l.off.toNat + 32) (by omega), r8_congr h (k := l.off.toNat + 40) (by omega)]

/-- A fold depends only on the 16 bytes from its offset. -/
theorem foldRound_congr {S : SecretTable} {B C : Nat → Byte} {n : Nat} {l : Lanes} (h : ∀ j < n, B j = C j)
    (hk : l.off.toNat + 16 ≤ n) : foldRound S B l = foldRound S C l := by
  simp only [foldRound]
  rw [r8_congr h (k := l.off.toNat) (by omega), r8_congr h (k := l.off.toNat + 8) (by omega)]

/-- The progress registers split `n` bytes (R38). -/
def Lanes.splits (n : Nat) (l : Lanes) : Prop := l.off.toNat + l.rem.toNat = n ∧ n < 2 ^ 64

/-- A bulk round consumes 48 bytes. -/
theorem bulkRound_splits {S : SecretTable} {B : Nat → Byte} {n : Nat} {l : Lanes} (h : l.splits n)
    (hr : 48 ≤ l.rem.toNat) :
    (bulkRound S B l).splits n ∧ (bulkRound S B l).rem.toNat = l.rem.toNat - 48 ∧
      (bulkRound S B l).off.toNat = l.off.toNat + 48 := by
  obtain ⟨h1, h2⟩ := h
  have e1 : (l.rem - 48).toNat = l.rem.toNat - 48 := by
    have := l.rem.isLt
    rw [BitVec.toNat_sub]
    simp
    omega
  have e2 : (l.off + 48).toNat = l.off.toNat + 48 := by
    have := l.off.isLt
    rw [BitVec.toNat_add]
    simp
    omega
  simp only [bulkRound, Lanes.splits]
  rw [e1, e2]
  omega

/-- A fold consumes 16 bytes. -/
theorem foldRound_splits {S : SecretTable} {B : Nat → Byte} {n : Nat} {l : Lanes} (h : l.splits n)
    (hr : 16 < l.rem.toNat) :
    (foldRound S B l).splits n ∧ (foldRound S B l).rem.toNat = l.rem.toNat - 16 ∧
      (foldRound S B l).off.toNat = l.off.toNat + 16 := by
  obtain ⟨h1, h2⟩ := h
  have e1 : (l.rem - 16).toNat = l.rem.toNat - 16 := by
    have := l.rem.isLt
    rw [BitVec.toNat_sub]
    simp
    omega
  have e2 : (l.off + 16).toNat = l.off.toNat + 16 := by
    have := l.off.isLt
    rw [BitVec.toNat_add]
    simp
    omega
  simp only [foldRound, Lanes.splits]
  rw [e1, e2]
  omega

/-- The folds leave a first lane that depends on no other lane. -/
theorem foldLoop_acc0 {S : SecretTable} {B : Nat → Byte} {f : Nat} {l m : Lanes} (h0 : l.acc0 = m.acc0)
    (h1 : l.off = m.off) (h2 : l.rem = m.rem) : (foldLoop S B f l).acc0 = (foldLoop S B f m).acc0 := by
  induction f generalizing l m with
  | zero => exact h0
  | succ f ih =>
    simp only [foldLoop]
    by_cases h : 16 < l.rem.toNat
    · rw [if_pos h, if_pos (h2 ▸ h)]
      exact ih (by simp only [foldRound, h0, h1]) (by simp only [foldRound, h1]) (by simp only [foldRound, h2])
    · rw [if_neg h, if_neg (h2 ▸ h)]
      exact h0

end Sys2Proof.Machine
end

