-- ==== Sys2Proof/Laws/State.lean ====
section
/-! SUPPORT. One lemma per field per update of `State` and of `Engine`, so that no later proof unfolds a record update. -/

namespace Sys2Proof.Machine

/-! ### Updates of `State` -/

@[simp] theorem State.setEngine_cfg (s : State) (k : Nat) (e : Engine) : (s.setEngine k e).cfg = s.cfg := rfl
@[simp] theorem State.setEngine_engines (s : State) (k : Nat) (e : Engine) : (s.setEngine k e).engines = s.engines.set k e := rfl
@[simp] theorem State.setEngine_mem (s : State) (k : Nat) (e : Engine) : (s.setEngine k e).mem = s.mem := rfl
@[simp] theorem State.setEngine_hosts (s : State) (k : Nat) (e : Engine) : (s.setEngine k e).hosts = s.hosts := rfl
@[simp] theorem State.setEngine_sched (s : State) (k : Nat) (e : Engine) : (s.setEngine k e).sched = s.sched := rfl
@[simp] theorem State.setEngine_target (s : State) (k : Nat) (e : Engine) : (s.setEngine k e).target = s.target := rfl
@[simp] theorem State.setEngine_rdata (s : State) (k : Nat) (e : Engine) : (s.setEngine k e).rdata = s.rdata := rfl
@[simp] theorem State.setEngine_free (s : State) (k : Nat) (e : Engine) : (s.setEngine k e).free = s.free := rfl

@[simp] theorem State.setHost_cfg (s : State) (j : Nat) (h : HostAgent) : (s.setHost j h).cfg = s.cfg := rfl
@[simp] theorem State.setHost_engines (s : State) (j : Nat) (h : HostAgent) : (s.setHost j h).engines = s.engines := rfl
@[simp] theorem State.setHost_mem (s : State) (j : Nat) (h : HostAgent) : (s.setHost j h).mem = s.mem := rfl
@[simp] theorem State.setHost_hosts (s : State) (j : Nat) (h : HostAgent) : (s.setHost j h).hosts = s.hosts.set j h := rfl
@[simp] theorem State.setHost_sched (s : State) (j : Nat) (h : HostAgent) : (s.setHost j h).sched = s.sched := rfl
@[simp] theorem State.setHost_target (s : State) (j : Nat) (h : HostAgent) : (s.setHost j h).target = s.target := rfl
@[simp] theorem State.setHost_rdata (s : State) (j : Nat) (h : HostAgent) : (s.setHost j h).rdata = s.rdata := rfl
@[simp] theorem State.setHost_free (s : State) (j : Nat) (h : HostAgent) : (s.setHost j h).free = s.free := rfl

@[simp] theorem State.withData_cfg (s : State) (v : Word) : (s.withData v).cfg = s.cfg := rfl
@[simp] theorem State.withData_engines (s : State) (v : Word) : (s.withData v).engines = s.engines := rfl
@[simp] theorem State.withData_mem (s : State) (v : Word) : (s.withData v).mem = s.mem := rfl
@[simp] theorem State.withData_hosts (s : State) (v : Word) : (s.withData v).hosts = s.hosts := rfl
@[simp] theorem State.withData_sched (s : State) (v : Word) : (s.withData v).sched = s.sched := rfl
@[simp] theorem State.withData_target (s : State) (v : Word) : (s.withData v).target = s.target := rfl
@[simp] theorem State.withData_rdata (s : State) (v : Word) : (s.withData v).rdata = v := rfl
@[simp] theorem State.withData_free (s : State) (v : Word) : (s.withData v).free = s.free := rfl

@[simp] theorem State.drawn_cfg (s : State) (n : Nat) : (s.drawn n).cfg = s.cfg := rfl
@[simp] theorem State.drawn_engines (s : State) (n : Nat) : (s.drawn n).engines = s.engines := rfl
@[simp] theorem State.drawn_mem (s : State) (n : Nat) : (s.drawn n).mem = s.mem := rfl
@[simp] theorem State.drawn_hosts (s : State) (n : Nat) : (s.drawn n).hosts = s.hosts := rfl
@[simp] theorem State.drawn_sched (s : State) (n : Nat) : (s.drawn n).sched = s.sched := rfl
@[simp] theorem State.drawn_target (s : State) (n : Nat) : (s.drawn n).target = s.target := rfl
@[simp] theorem State.drawn_rdata (s : State) (n : Nat) : (s.drawn n).rdata = s.rdata := rfl
@[simp] theorem State.drawn_free (s : State) (n : Nat) : (s.drawn n).free = s.free + n := rfl

/-! ### Updates of `Engine` -/

@[simp] theorem Engine.flagsStarted_busy (e : Engine) : (e.flagsStarted).busy = true := rfl
@[simp] theorem Engine.flagsStarted_done (e : Engine) : (e.flagsStarted).done = false := rfl
@[simp] theorem Engine.flagsStarted_err (e : Engine) : (e.flagsStarted).err = false := rfl
@[simp] theorem Engine.flagsStarted_errCode (e : Engine) : (e.flagsStarted).errCode = 0 := rfl
@[simp] theorem Engine.flagsStarted_seed (e : Engine) : (e.flagsStarted).seed = e.seed := rfl
@[simp] theorem Engine.flagsStarted_src (e : Engine) : (e.flagsStarted).src = e.src := rfl
@[simp] theorem Engine.flagsStarted_len (e : Engine) : (e.flagsStarted).len = e.len := rfl
@[simp] theorem Engine.flagsStarted_result (e : Engine) : (e.flagsStarted).result = e.result := rfl
@[simp] theorem Engine.flagsStarted_phase (e : Engine) : (e.flagsStarted).phase = e.phase := rfl
@[simp] theorem Engine.flagsStarted_lSeed (e : Engine) : (e.flagsStarted).lSeed = e.lSeed := rfl
@[simp] theorem Engine.flagsStarted_lSrc (e : Engine) : (e.flagsStarted).lSrc = e.lSrc := rfl
@[simp] theorem Engine.flagsStarted_lLen (e : Engine) : (e.flagsStarted).lLen = e.lLen := rfl
@[simp] theorem Engine.flagsStarted_acc0 (e : Engine) : (e.flagsStarted).acc0 = e.acc0 := rfl
@[simp] theorem Engine.flagsStarted_acc1 (e : Engine) : (e.flagsStarted).acc1 = e.acc1 := rfl
@[simp] theorem Engine.flagsStarted_acc2 (e : Engine) : (e.flagsStarted).acc2 = e.acc2 := rfl
@[simp] theorem Engine.flagsStarted_fa (e : Engine) : (e.flagsStarted).fa = e.fa := rfl
@[simp] theorem Engine.flagsStarted_fb (e : Engine) : (e.flagsStarted).fb = e.fb := rfl
@[simp] theorem Engine.flagsStarted_off (e : Engine) : (e.flagsStarted).off = e.off := rfl
@[simp] theorem Engine.flagsStarted_rem (e : Engine) : (e.flagsStarted).rem = e.rem := rfl
@[simp] theorem Engine.flagsStarted_raced (e : Engine) : (e.flagsStarted).raced = e.raced := rfl

@[simp] theorem Engine.flagsCompleted_busy (e : Engine) : (e.flagsCompleted).busy = false := rfl
@[simp] theorem Engine.flagsCompleted_done (e : Engine) : (e.flagsCompleted).done = true := rfl
@[simp] theorem Engine.flagsCompleted_err (e : Engine) : (e.flagsCompleted).err = false := rfl
@[simp] theorem Engine.flagsCompleted_errCode (e : Engine) : (e.flagsCompleted).errCode = 0 := rfl
@[simp] theorem Engine.flagsCompleted_seed (e : Engine) : (e.flagsCompleted).seed = e.seed := rfl
@[simp] theorem Engine.flagsCompleted_src (e : Engine) : (e.flagsCompleted).src = e.src := rfl
@[simp] theorem Engine.flagsCompleted_len (e : Engine) : (e.flagsCompleted).len = e.len := rfl
@[simp] theorem Engine.flagsCompleted_result (e : Engine) : (e.flagsCompleted).result = e.result := rfl
@[simp] theorem Engine.flagsCompleted_phase (e : Engine) : (e.flagsCompleted).phase = e.phase := rfl
@[simp] theorem Engine.flagsCompleted_lSeed (e : Engine) : (e.flagsCompleted).lSeed = e.lSeed := rfl
@[simp] theorem Engine.flagsCompleted_lSrc (e : Engine) : (e.flagsCompleted).lSrc = e.lSrc := rfl
@[simp] theorem Engine.flagsCompleted_lLen (e : Engine) : (e.flagsCompleted).lLen = e.lLen := rfl
@[simp] theorem Engine.flagsCompleted_acc0 (e : Engine) : (e.flagsCompleted).acc0 = e.acc0 := rfl
@[simp] theorem Engine.flagsCompleted_acc1 (e : Engine) : (e.flagsCompleted).acc1 = e.acc1 := rfl
@[simp] theorem Engine.flagsCompleted_acc2 (e : Engine) : (e.flagsCompleted).acc2 = e.acc2 := rfl
@[simp] theorem Engine.flagsCompleted_fa (e : Engine) : (e.flagsCompleted).fa = e.fa := rfl
@[simp] theorem Engine.flagsCompleted_fb (e : Engine) : (e.flagsCompleted).fb = e.fb := rfl
@[simp] theorem Engine.flagsCompleted_off (e : Engine) : (e.flagsCompleted).off = e.off := rfl
@[simp] theorem Engine.flagsCompleted_rem (e : Engine) : (e.flagsCompleted).rem = e.rem := rfl
@[simp] theorem Engine.flagsCompleted_raced (e : Engine) : (e.flagsCompleted).raced = e.raced := rfl

@[simp] theorem Engine.flagsFailed_busy (e : Engine) (c : ErrorCause) : (e.flagsFailed c).busy = false := rfl
@[simp] theorem Engine.flagsFailed_done (e : Engine) (c : ErrorCause) : (e.flagsFailed c).done = true := rfl
@[simp] theorem Engine.flagsFailed_err (e : Engine) (c : ErrorCause) : (e.flagsFailed c).err = true := rfl
@[simp] theorem Engine.flagsFailed_errCode (e : Engine) (c : ErrorCause) : (e.flagsFailed c).errCode = c.code := rfl
@[simp] theorem Engine.flagsFailed_seed (e : Engine) (c : ErrorCause) : (e.flagsFailed c).seed = e.seed := rfl
@[simp] theorem Engine.flagsFailed_src (e : Engine) (c : ErrorCause) : (e.flagsFailed c).src = e.src := rfl
@[simp] theorem Engine.flagsFailed_len (e : Engine) (c : ErrorCause) : (e.flagsFailed c).len = e.len := rfl
@[simp] theorem Engine.flagsFailed_result (e : Engine) (c : ErrorCause) : (e.flagsFailed c).result = e.result := rfl
@[simp] theorem Engine.flagsFailed_phase (e : Engine) (c : ErrorCause) : (e.flagsFailed c).phase = e.phase := rfl
@[simp] theorem Engine.flagsFailed_lSeed (e : Engine) (c : ErrorCause) : (e.flagsFailed c).lSeed = e.lSeed := rfl
@[simp] theorem Engine.flagsFailed_lSrc (e : Engine) (c : ErrorCause) : (e.flagsFailed c).lSrc = e.lSrc := rfl
@[simp] theorem Engine.flagsFailed_lLen (e : Engine) (c : ErrorCause) : (e.flagsFailed c).lLen = e.lLen := rfl
@[simp] theorem Engine.flagsFailed_acc0 (e : Engine) (c : ErrorCause) : (e.flagsFailed c).acc0 = e.acc0 := rfl
@[simp] theorem Engine.flagsFailed_acc1 (e : Engine) (c : ErrorCause) : (e.flagsFailed c).acc1 = e.acc1 := rfl
@[simp] theorem Engine.flagsFailed_acc2 (e : Engine) (c : ErrorCause) : (e.flagsFailed c).acc2 = e.acc2 := rfl
@[simp] theorem Engine.flagsFailed_fa (e : Engine) (c : ErrorCause) : (e.flagsFailed c).fa = e.fa := rfl
@[simp] theorem Engine.flagsFailed_fb (e : Engine) (c : ErrorCause) : (e.flagsFailed c).fb = e.fb := rfl
@[simp] theorem Engine.flagsFailed_off (e : Engine) (c : ErrorCause) : (e.flagsFailed c).off = e.off := rfl
@[simp] theorem Engine.flagsFailed_rem (e : Engine) (c : ErrorCause) : (e.flagsFailed c).rem = e.rem := rfl
@[simp] theorem Engine.flagsFailed_raced (e : Engine) (c : ErrorCause) : (e.flagsFailed c).raced = e.raced := rfl

@[simp] theorem Engine.raiseError_busy (e : Engine) (c : ErrorCause) : (e.raiseError c).busy = false := rfl
@[simp] theorem Engine.raiseError_done (e : Engine) (c : ErrorCause) : (e.raiseError c).done = true := rfl
@[simp] theorem Engine.raiseError_err (e : Engine) (c : ErrorCause) : (e.raiseError c).err = true := rfl
@[simp] theorem Engine.raiseError_errCode (e : Engine) (c : ErrorCause) : (e.raiseError c).errCode = c.code := rfl
@[simp] theorem Engine.raiseError_seed (e : Engine) (c : ErrorCause) : (e.raiseError c).seed = e.seed := rfl
@[simp] theorem Engine.raiseError_src (e : Engine) (c : ErrorCause) : (e.raiseError c).src = e.src := rfl
@[simp] theorem Engine.raiseError_len (e : Engine) (c : ErrorCause) : (e.raiseError c).len = e.len := rfl
@[simp] theorem Engine.raiseError_result (e : Engine) (c : ErrorCause) : (e.raiseError c).result = e.result := rfl
@[simp] theorem Engine.raiseError_phase (e : Engine) (c : ErrorCause) : (e.raiseError c).phase = .idle := rfl
@[simp] theorem Engine.raiseError_lSeed (e : Engine) (c : ErrorCause) : (e.raiseError c).lSeed = e.lSeed := rfl
@[simp] theorem Engine.raiseError_lSrc (e : Engine) (c : ErrorCause) : (e.raiseError c).lSrc = e.lSrc := rfl
@[simp] theorem Engine.raiseError_lLen (e : Engine) (c : ErrorCause) : (e.raiseError c).lLen = e.lLen := rfl
@[simp] theorem Engine.raiseError_acc0 (e : Engine) (c : ErrorCause) : (e.raiseError c).acc0 = e.acc0 := rfl
@[simp] theorem Engine.raiseError_acc1 (e : Engine) (c : ErrorCause) : (e.raiseError c).acc1 = e.acc1 := rfl
@[simp] theorem Engine.raiseError_acc2 (e : Engine) (c : ErrorCause) : (e.raiseError c).acc2 = e.acc2 := rfl
@[simp] theorem Engine.raiseError_fa (e : Engine) (c : ErrorCause) : (e.raiseError c).fa = e.fa := rfl
@[simp] theorem Engine.raiseError_fb (e : Engine) (c : ErrorCause) : (e.raiseError c).fb = e.fb := rfl
@[simp] theorem Engine.raiseError_off (e : Engine) (c : ErrorCause) : (e.raiseError c).off = e.off := rfl
@[simp] theorem Engine.raiseError_rem (e : Engine) (c : ErrorCause) : (e.raiseError c).rem = e.rem := rfl
@[simp] theorem Engine.raiseError_raced (e : Engine) (c : ErrorCause) : (e.raiseError c).raced = e.raced := rfl

@[simp] theorem Engine.start_busy (e : Engine) (r : Bool) : (e.start r).busy = true := rfl
@[simp] theorem Engine.start_done (e : Engine) (r : Bool) : (e.start r).done = false := rfl
@[simp] theorem Engine.start_err (e : Engine) (r : Bool) : (e.start r).err = false := rfl
@[simp] theorem Engine.start_errCode (e : Engine) (r : Bool) : (e.start r).errCode = 0 := rfl
@[simp] theorem Engine.start_seed (e : Engine) (r : Bool) : (e.start r).seed = e.seed := rfl
@[simp] theorem Engine.start_src (e : Engine) (r : Bool) : (e.start r).src = e.src := rfl
@[simp] theorem Engine.start_len (e : Engine) (r : Bool) : (e.start r).len = e.len := rfl
@[simp] theorem Engine.start_result (e : Engine) (r : Bool) : (e.start r).result = e.result := rfl
@[simp] theorem Engine.start_phase (e : Engine) (r : Bool) : (e.start r).phase = .init := rfl
@[simp] theorem Engine.start_lSeed (e : Engine) (r : Bool) : (e.start r).lSeed = e.seed := rfl
@[simp] theorem Engine.start_lSrc (e : Engine) (r : Bool) : (e.start r).lSrc = e.src := rfl
@[simp] theorem Engine.start_lLen (e : Engine) (r : Bool) : (e.start r).lLen = e.len := rfl
@[simp] theorem Engine.start_acc0 (e : Engine) (r : Bool) : (e.start r).acc0 = e.acc0 := rfl
@[simp] theorem Engine.start_acc1 (e : Engine) (r : Bool) : (e.start r).acc1 = e.acc1 := rfl
@[simp] theorem Engine.start_acc2 (e : Engine) (r : Bool) : (e.start r).acc2 = e.acc2 := rfl
@[simp] theorem Engine.start_fa (e : Engine) (r : Bool) : (e.start r).fa = e.fa := rfl
@[simp] theorem Engine.start_fb (e : Engine) (r : Bool) : (e.start r).fb = e.fb := rfl
@[simp] theorem Engine.start_off (e : Engine) (r : Bool) : (e.start r).off = e.off := rfl
@[simp] theorem Engine.start_rem (e : Engine) (r : Bool) : (e.start r).rem = e.rem := rfl
@[simp] theorem Engine.start_raced (e : Engine) (r : Bool) : (e.start r).raced = r := rfl

@[simp] theorem Engine.setLanes_busy (e : Engine) (l : Lanes) : (e.setLanes l).busy = e.busy := rfl
@[simp] theorem Engine.setLanes_done (e : Engine) (l : Lanes) : (e.setLanes l).done = e.done := rfl
@[simp] theorem Engine.setLanes_err (e : Engine) (l : Lanes) : (e.setLanes l).err = e.err := rfl
@[simp] theorem Engine.setLanes_errCode (e : Engine) (l : Lanes) : (e.setLanes l).errCode = e.errCode := rfl
@[simp] theorem Engine.setLanes_seed (e : Engine) (l : Lanes) : (e.setLanes l).seed = e.seed := rfl
@[simp] theorem Engine.setLanes_src (e : Engine) (l : Lanes) : (e.setLanes l).src = e.src := rfl
@[simp] theorem Engine.setLanes_len (e : Engine) (l : Lanes) : (e.setLanes l).len = e.len := rfl
@[simp] theorem Engine.setLanes_result (e : Engine) (l : Lanes) : (e.setLanes l).result = e.result := rfl
@[simp] theorem Engine.setLanes_phase (e : Engine) (l : Lanes) : (e.setLanes l).phase = e.phase := rfl
@[simp] theorem Engine.setLanes_lSeed (e : Engine) (l : Lanes) : (e.setLanes l).lSeed = e.lSeed := rfl
@[simp] theorem Engine.setLanes_lSrc (e : Engine) (l : Lanes) : (e.setLanes l).lSrc = e.lSrc := rfl
@[simp] theorem Engine.setLanes_lLen (e : Engine) (l : Lanes) : (e.setLanes l).lLen = e.lLen := rfl
@[simp] theorem Engine.setLanes_acc0 (e : Engine) (l : Lanes) : (e.setLanes l).acc0 = l.acc0 := rfl
@[simp] theorem Engine.setLanes_acc1 (e : Engine) (l : Lanes) : (e.setLanes l).acc1 = l.acc1 := rfl
@[simp] theorem Engine.setLanes_acc2 (e : Engine) (l : Lanes) : (e.setLanes l).acc2 = l.acc2 := rfl
@[simp] theorem Engine.setLanes_fa (e : Engine) (l : Lanes) : (e.setLanes l).fa = e.fa := rfl
@[simp] theorem Engine.setLanes_fb (e : Engine) (l : Lanes) : (e.setLanes l).fb = e.fb := rfl
@[simp] theorem Engine.setLanes_off (e : Engine) (l : Lanes) : (e.setLanes l).off = l.off := rfl
@[simp] theorem Engine.setLanes_rem (e : Engine) (l : Lanes) : (e.setLanes l).rem = l.rem := rfl
@[simp] theorem Engine.setLanes_raced (e : Engine) (l : Lanes) : (e.setLanes l).raced = e.raced := rfl

@[simp] theorem Engine.drawInternals_busy (e : Engine) (n : Nat) : (e.drawInternals n).busy = e.busy := rfl
@[simp] theorem Engine.drawInternals_done (e : Engine) (n : Nat) : (e.drawInternals n).done = e.done := rfl
@[simp] theorem Engine.drawInternals_err (e : Engine) (n : Nat) : (e.drawInternals n).err = e.err := rfl
@[simp] theorem Engine.drawInternals_errCode (e : Engine) (n : Nat) : (e.drawInternals n).errCode = e.errCode := rfl
@[simp] theorem Engine.drawInternals_seed (e : Engine) (n : Nat) : (e.drawInternals n).seed = e.seed := rfl
@[simp] theorem Engine.drawInternals_src (e : Engine) (n : Nat) : (e.drawInternals n).src = e.src := rfl
@[simp] theorem Engine.drawInternals_len (e : Engine) (n : Nat) : (e.drawInternals n).len = e.len := rfl
@[simp] theorem Engine.drawInternals_result (e : Engine) (n : Nat) : (e.drawInternals n).result = e.result := rfl
@[simp] theorem Engine.drawInternals_phase (e : Engine) (n : Nat) : (e.drawInternals n).phase = e.phase := rfl
@[simp] theorem Engine.drawInternals_raced (e : Engine) (n : Nat) : (e.drawInternals n).raced = e.raced := rfl
@[simp] theorem Engine.drawInternals_lSeed (e : Engine) (n : Nat) : (e.drawInternals n).lSeed = Config.freeWord n := rfl
@[simp] theorem Engine.drawInternals_lSrc (e : Engine) (n : Nat) : (e.drawInternals n).lSrc = Config.freeWord (n + 1) := rfl
@[simp] theorem Engine.drawInternals_lLen (e : Engine) (n : Nat) : (e.drawInternals n).lLen = Config.freeWord (n + 2) := rfl
@[simp] theorem Engine.drawInternals_acc0 (e : Engine) (n : Nat) : (e.drawInternals n).acc0 = Config.freeWord (n + 3) := rfl
@[simp] theorem Engine.drawInternals_acc1 (e : Engine) (n : Nat) : (e.drawInternals n).acc1 = Config.freeWord (n + 4) := rfl
@[simp] theorem Engine.drawInternals_acc2 (e : Engine) (n : Nat) : (e.drawInternals n).acc2 = Config.freeWord (n + 5) := rfl
@[simp] theorem Engine.drawInternals_fa (e : Engine) (n : Nat) : (e.drawInternals n).fa = Config.freeWord (n + 6) := rfl
@[simp] theorem Engine.drawInternals_fb (e : Engine) (n : Nat) : (e.drawInternals n).fb = Config.freeWord (n + 7) := rfl
@[simp] theorem Engine.drawInternals_off (e : Engine) (n : Nat) : (e.drawInternals n).off = Config.freeWord (n + 8) := rfl
@[simp] theorem Engine.drawInternals_rem (e : Engine) (n : Nat) : (e.drawInternals n).rem = Config.freeWord (n + 9) := rfl

@[simp] theorem Engine.abort_busy (e : Engine) (n : Nat) : (e.abort n).busy = false := rfl
@[simp] theorem Engine.abort_done (e : Engine) (n : Nat) : (e.abort n).done = true := rfl
@[simp] theorem Engine.abort_err (e : Engine) (n : Nat) : (e.abort n).err = true := rfl
@[simp] theorem Engine.abort_errCode (e : Engine) (n : Nat) : (e.abort n).errCode = ErrorCause.busError.code := rfl
@[simp] theorem Engine.abort_seed (e : Engine) (n : Nat) : (e.abort n).seed = e.seed := rfl
@[simp] theorem Engine.abort_src (e : Engine) (n : Nat) : (e.abort n).src = e.src := rfl
@[simp] theorem Engine.abort_len (e : Engine) (n : Nat) : (e.abort n).len = e.len := rfl
@[simp] theorem Engine.abort_result (e : Engine) (n : Nat) : (e.abort n).result = e.result := rfl
@[simp] theorem Engine.abort_phase (e : Engine) (n : Nat) : (e.abort n).phase = .idle := rfl
@[simp] theorem Engine.abort_lSeed (e : Engine) (n : Nat) : (e.abort n).lSeed = Config.freeWord n := rfl
@[simp] theorem Engine.abort_lSrc (e : Engine) (n : Nat) : (e.abort n).lSrc = Config.freeWord (n + 1) := rfl
@[simp] theorem Engine.abort_lLen (e : Engine) (n : Nat) : (e.abort n).lLen = Config.freeWord (n + 2) := rfl
@[simp] theorem Engine.abort_acc0 (e : Engine) (n : Nat) : (e.abort n).acc0 = Config.freeWord (n + 3) := rfl
@[simp] theorem Engine.abort_acc1 (e : Engine) (n : Nat) : (e.abort n).acc1 = Config.freeWord (n + 4) := rfl
@[simp] theorem Engine.abort_acc2 (e : Engine) (n : Nat) : (e.abort n).acc2 = Config.freeWord (n + 5) := rfl
@[simp] theorem Engine.abort_fa (e : Engine) (n : Nat) : (e.abort n).fa = Config.freeWord (n + 6) := rfl
@[simp] theorem Engine.abort_fb (e : Engine) (n : Nat) : (e.abort n).fb = Config.freeWord (n + 7) := rfl
@[simp] theorem Engine.abort_off (e : Engine) (n : Nat) : (e.abort n).off = Config.freeWord (n + 8) := rfl
@[simp] theorem Engine.abort_rem (e : Engine) (n : Nat) : (e.abort n).rem = Config.freeWord (n + 9) := rfl
@[simp] theorem Engine.abort_raced (e : Engine) (n : Nat) : (e.abort n).raced = e.raced := rfl

end Sys2Proof.Machine
end

