-- ==== Sys2Proof/Laws/Ops.lean ====
section
/-! SUPPORT. What the shared operations do, once each: a register access ends in exactly one way, and so does every meaning. -/

namespace Sys2Proof.Machine

/-- Replacing an instance by itself changes nothing. -/
theorem State.setEngine_self {s : State} {k : Nat} {e : Engine} (h : s.engines[k]? = some e) : s.setEngine k e = s := by
  obtain ⟨hk, rfl⟩ := List.getElem?_eq_some_iff.1 h
  simp [State.setEngine]

/-- Replacing a host agent by itself changes nothing. -/
theorem State.setHost_self {s : State} {j : Nat} {h : HostAgent} (hj : s.hosts[j]? = some h) : s.setHost j h = s := by
  obtain ⟨hk, rfl⟩ := List.getElem?_eq_some_iff.1 hj
  simp [State.setHost]

/-- An instance reads as it was set. -/
theorem State.setEngine_get {s : State} {k : Nat} {e : Engine} (h : s.engines[k]? = some e) (f : Engine) :
    (s.setEngine k f).engines[k]? = some f := by
  obtain ⟨hk, -⟩ := List.getElem?_eq_some_iff.1 h
  simp [State.setEngine, hk]

/-- Setting one instance leaves every other one. -/
theorem State.setEngine_get_ne (s : State) {k j : Nat} (f : Engine) (h : j ≠ k) :
    (s.setEngine k f).engines[j]? = s.engines[j]? := by
  simp [State.setEngine, Ne.symm h]

/-- An access to an instance completes. -/
theorem onTarget_some {s : State} {e : Engine} (h : s.engine? = some e) (f : Engine → State) :
    onTarget f s = .next (f e) := by
  simp [onTarget, h]

/-- An access that completes addressed an instance. -/
theorem onTarget_next {s t : State} {f : Engine → State} (h : onTarget f s = .next t) :
    ∃ e, s.engine? = some e ∧ t = f e := by
  unfold onTarget at h
  split at h
  · cases h; exact ⟨_, ‹_›, rfl⟩
  · cases h

/-- A register read of an instance completes: it returns the value, and no more. -/
theorem readReg_some {s : State} {e : Engine} (h : s.engine? = some e) (f : Engine → Word) :
    readReg f s = .next (s.withData (f e)) := onTarget_some h _

/-- A register write of an instance completes: it replaces that instance, and no more. -/
theorem writeReg_some {s : State} {e : Engine} (h : s.engine? = some e) (f : Engine → Engine) :
    writeReg f s = .next (s.setEngine s.target (f e)) := onTarget_some h _

/-- A register write that keeps the instance changes no state. -/
theorem writeReg_id {s : State} {e : Engine} (h : s.engine? = some e) {f : Engine → Engine} (hf : f e = e) :
    writeReg f s = .next s := by
  rw [writeReg_some h, hf, State.setEngine_self h]

/-- A command given while busy changes no state (R161). -/
theorem command_busy {s : State} {e : Engine} (h : s.engine? = some e) (hb : e.busy = true) (f : Engine → Engine) :
    command f s = .next s := writeReg_id h (by simp [hb])

/-- A command given while idle has its effect on the instance (R161). -/
theorem command_idle {s : State} {e : Engine} (h : s.engine? = some e) (hb : e.busy = false) (f : Engine → Engine) :
    command f s = .next (s.setEngine s.target (f e)) := by
  rw [command, writeReg_some h]; simp [hb]

/-- What a register access can do to the engine it addresses (R150): nothing, a write of an operand register, a DIGEST accepted or refused, or
an illegal command. -/
inductive AccessEffect (c : Config) (e : Engine) : Engine → Prop where
  | none : AccessEffect c e e
  | seed (v : Word) : AccessEffect c e { e with seed := v }
  | src (v : Word) : AccessEffect c e { e with src := v }
  | len (v : Word) : AccessEffect c e { e with len := v }
  | started (hb : e.busy = false) (hr : rangeOk c e.src e.len = true) (r : Bool) : AccessEffect c e (e.start r)
  | failed (hb : e.busy = false) (x : ErrorCause) (hx : x = .illegalCmd ∨ x = .range) : AccessEffect c e (e.raiseError x)

/-- A DIGEST while idle starts an operation or is refused. -/
theorem AccessEffect.digestIdle {s : State} {e : Engine} (hb : e.busy = false) :
    AccessEffect s.cfg e (e.digestIdle s) := by
  unfold Engine.digestIdle
  split
  · exact .started hb ‹_› _
  · exact .failed hb _ (.inr rfl)

/-- The state after a register access: a value returned, or one effect on the addressed instance. -/
def AccessResult (s t : State) : Prop :=
  ∃ e f, s.engine? = some e ∧ AccessEffect s.cfg e f ∧ ((∃ v, t = s.withData v ∧ f = e) ∨ t = s.setEngine s.target f)

/-- What a register read that completes did. -/
theorem readReg_result {s : State} {f : Engine → Word} {t : State} (h : readReg f s = .next t) : AccessResult s t := by
  obtain ⟨e, he, rfl⟩ := onTarget_next h
  exact ⟨e, e, he, .none, .inl ⟨_, rfl, rfl⟩⟩

/-- What a register write that completes did. -/
theorem writeReg_result {s : State} {f : Engine → Engine} {t : State} (hf : ∀ e, AccessEffect s.cfg e (f e))
    (h : writeReg f s = .next t) : AccessResult s t := by
  obtain ⟨e, he, rfl⟩ := onTarget_next h
  exact ⟨e, f e, he, hf e, .inr rfl⟩

/-- What a command that completes did. -/
theorem command_result {s : State} {f : Engine → Engine} {t : State}
    (hf : ∀ e, e.busy = false → AccessEffect s.cfg e (f e)) (h : command f s = .next t) : AccessResult s t := by
  refine writeReg_result (fun e => ?_) h
  by_cases hb : e.busy = true
  · simp only [hb, if_true]; exact .none
  · simp only [hb]; exact hf e (by simpa using hb)

end Sys2Proof.Machine
end

