-- ==== Sys2Proof/Laws/Exec.lean ====
section
/-! SUPPORT. The inversion of `exec`: what an instruction that completes can have done. -/

namespace Sys2Proof.Machine

/-- Every instruction that completes is a register read, or has one effect on the addressed instance. -/
theorem exec_result {i : Instr} {s t : State} (h : exec i s = .next t) : AccessResult s t := by
  cases i
  case unadmittedAccess => cases h
  case nop => exact command_result (fun _ _ => .none) h
  case digest => exact command_result (fun _ hb => .digestIdle hb) h
  case illegal => exact command_result (fun _ hb => .failed hb _ (.inl rfl)) h
  case wrCmd w =>
    refine command_result (fun e hb => ?_) h
    split
    · exact .none
    · exact .digestIdle hb
    · exact .failed hb _ (.inl rfl)
  case wrSeed v => exact writeReg_result (fun _ => .seed v) h
  case wrSrc v => exact writeReg_result (fun _ => .src v) h
  case wrLen v => exact writeReg_result (fun _ => .len v) h
  all_goals first | exact readReg_result h | exact writeReg_result (fun _ => .none) h

/-- An instruction that completes leaves the host agents as they were. -/
theorem exec_hosts {i : Instr} {s t : State} (h : exec i s = .next t) : t.hosts = s.hosts := by
  obtain ⟨e, f, he, hf, ⟨v, rfl, rfl⟩ | rfl⟩ := exec_result h <;> rfl

end Sys2Proof.Machine
end

