-- ==== Sys2Proof/Laws/Memory.lean ====
section
/-! SUPPORT. The laws of host memory: what a read gives after a write, and that every operation keeps the canonical form. -/

namespace Sys2Proof.Machine

/-- A byte below every listed address reads as an unlisted one. -/
theorem Memory.read_below {m : Memory} {z : Nat} (h : ∀ c ∈ m, z < c.1) : Memory.read m z = 0 := by
  induction m with
  | nil => rfl
  | cons c m ih =>
    have := h c (by simp)
    simp only [Memory.read]
    rw [if_neg (by omega)]
    exact ih fun d hd => h d (by simp [hd])

/-- A read after a write gives the byte written at its address, and the old byte everywhere else. -/
theorem Memory.read_write {m : Memory} (h : m.wf) (x : Nat) (v : Byte) (y : Nat) :
    Memory.read (Memory.write m x v) y = if y = x then v else Memory.read m y := by
  obtain ⟨h, -⟩ := h
  induction m with
  | nil =>
    simp only [Memory.write]
    split <;> simp_all [Memory.read]
  | cons c m ih =>
    obtain ⟨a, b⟩ := c
    obtain ⟨ha, hm⟩ := List.pairwise_cons.1 h
    have below : ∀ z, z ≤ a → Memory.read m z = 0 := fun z hz =>
      Memory.read_below fun d hd => by have := ha d hd; simp only at this; omega
    simp only [Memory.write]
    split
    · split
      · by_cases hy : y = x
        · subst hy
          simp only [Memory.read, if_pos, *]
          rw [if_neg (by omega), below y (by omega)]
        · simp [hy]
      · simp only [Memory.read]
    · split
      · subst_vars
        split
        · by_cases hy : y = a
          · subst hy; simp_all
          · simp [hy, Memory.read]
        · by_cases hy : y = a <;> simp [hy, Memory.read]
      · simp only [Memory.read, ih hm]
        by_cases hy : y = a
        · subst hy
          rw [if_pos rfl, if_neg (by omega), if_pos rfl]
        · simp [hy]

/-- A cell of the memory after a write is the one written or an old one. -/
theorem Memory.mem_write {m : Memory} {x : Nat} {v : Byte} {c : Host.Cell} (h : c ∈ Memory.write m x v) :
    (c = (x, v) ∧ v ≠ 0) ∨ c ∈ m := by
  induction m with
  | nil =>
    simp only [Memory.write] at h
    split at h
    · cases h
    · exact .inl ⟨List.mem_singleton.1 h, ‹_›⟩
  | cons d m ih =>
    obtain ⟨a, b⟩ := d
    simp only [Memory.write] at h
    split at h
    · split at h
      · exact .inr h
      · rcases List.mem_cons.1 h with h | h
        · exact .inl ⟨h, ‹_›⟩
        · exact .inr h
    · split at h
      · split at h
        · exact .inr (List.mem_cons_of_mem _ h)
        · rcases List.mem_cons.1 h with h | h
          · subst_vars; exact .inl ⟨rfl, ‹_›⟩
          · exact .inr (List.mem_cons_of_mem _ h)
      · rcases List.mem_cons.1 h with h | h
        · exact .inr (h ▸ List.mem_cons_self)
        · exact (ih h).imp id (List.mem_cons_of_mem _)

/-- A write keeps the canonical form. -/
theorem Memory.write_wf {m : Memory} (h : m.wf) (x : Nat) (v : Byte) : (Memory.write m x v).wf := by
  constructor
  · obtain ⟨h, -⟩ := h
    induction m with
    | nil =>
      simp only [Memory.write]
      split <;> simp
    | cons d m ih =>
      obtain ⟨a, b⟩ := d
      obtain ⟨ha, hm⟩ := List.pairwise_cons.1 h
      simp only [Memory.write]
      split
      · split
        · exact h
        · refine List.pairwise_cons.2 ⟨fun c hc => ?_, h⟩
          rcases List.mem_cons.1 hc with hc | hc
          · subst hc; assumption
          · have := ha c hc; simp only at this ⊢; omega
      · split
        · split
          · exact hm
          · exact List.pairwise_cons.2 ⟨ha, hm⟩
        · refine List.pairwise_cons.2 ⟨fun c hc => ?_, ih hm⟩
          rcases Memory.mem_write hc with ⟨rfl, -⟩ | hc
          · simp only; omega
          · exact ha c hc
  · intro c hc
    rcases Memory.mem_write hc with ⟨rfl, hv⟩ | hc
    · exact hv
    · exact h.2 c hc

/-- Writing bytes keeps the canonical form. -/
theorem Memory.writeBytes_wf {m : Memory} (h : m.wf) (x : Nat) (vs : List Byte) : (Memory.writeBytes m x vs).wf := by
  induction vs generalizing m x with
  | nil => exact h
  | cons v vs ih => exact ih (Memory.write_wf h x v) (x + 1)

/-- Writing bytes below `n` lists no address from `n` on. -/
theorem Memory.writeBytes_space {m : Memory} {x n : Nat} {vs : List Byte} (h : ∀ c ∈ m, c.1 < n)
    (hn : x + vs.length ≤ n) : ∀ c ∈ Memory.writeBytes m x vs, c.1 < n := by
  induction vs generalizing m x with
  | nil => exact h
  | cons v vs ih =>
    simp only [List.length_cons] at hn
    refine ih (m := Memory.write m x v) (fun c hc => ?_) (by omega)
    rcases Memory.mem_write hc with ⟨rfl, -⟩ | hc
    · simp only; omega
    · exact h c hc

/-- A read after writing bytes gives those bytes at their addresses, and the old byte everywhere else. -/
theorem Memory.read_writeBytes {m : Memory} (h : m.wf) (x : Nat) (vs : List Byte) (y : Nat) :
    Memory.read (Memory.writeBytes m x vs) y =
      if x ≤ y ∧ y < x + vs.length then vs.getD (y - x) 0 else Memory.read m y := by
  induction vs generalizing m x with
  | nil => simp [Memory.writeBytes]
  | cons v vs ih =>
    simp only [Memory.writeBytes, List.length_cons]
    rw [ih (Memory.write_wf h x v), Memory.read_write h x v y]
    by_cases hy : y = x
    · subst hy; simp
    · by_cases hxy : x < y
      · obtain ⟨d, rfl⟩ : ∃ d, y = x + 1 + d := ⟨y - (x + 1), by omega⟩
        by_cases hd : d < vs.length
        · rw [if_pos (by omega), if_pos (by omega), show x + 1 + d - (x + 1) = d by omega,
            show x + 1 + d - x = d + 1 by omega, List.getD_cons_succ]
        · rw [if_neg (by omega), if_neg (by omega), if_neg (by omega)]
      · rw [if_neg (by omega), if_neg (by omega), if_neg (by omega)]

end Sys2Proof.Machine
end

