-- ==== Sys2Proof/Laws/PerInstr.lean ====
section
/-! SUPPORT. Facts of every instruction as syntax, one lemma per constructor: the encoded form of each row of spec/opcode_table.json. -/

namespace Sys2Proof.Laws.Form

/-- The rows of the command word (R73). -/
def isCommand : Instr → Bool
  | .nop | .digest | .illegal _ => true
  | _ => false

/-- Every command is one 64-bit word, and every other instruction is a host access (R70, R77). -/
def Statement (i : Instr) : Prop :=
  (match encode i with
    | .command _ => true
    | .access _ _ => false) = isCommand i

theorem nop : Statement .nop := by rfl
theorem digest : Statement .digest := by rfl
theorem illegal (w : Word) : Statement (.illegal w) := by rfl
theorem rdCmd : Statement (.rdCmd) := by rfl
theorem wrCmd (v : Word) : Statement (.wrCmd v) := by rfl
theorem rdStatus : Statement (.rdStatus) := by rfl
theorem wrStatus (v : Word) : Statement (.wrStatus v) := by rfl
theorem rdSeed : Statement (.rdSeed) := by rfl
theorem wrSeed (v : Word) : Statement (.wrSeed v) := by rfl
theorem rdSrc : Statement (.rdSrc) := by rfl
theorem wrSrc (v : Word) : Statement (.wrSrc v) := by rfl
theorem rdLen : Statement (.rdLen) := by rfl
theorem wrLen (v : Word) : Statement (.wrLen v) := by rfl
theorem rdResult : Statement (.rdResult) := by rfl
theorem wrResult (v : Word) : Statement (.wrResult v) := by rfl
theorem rdReserved30 : Statement (.rdReserved30) := by rfl
theorem wrReserved30 (v : Word) : Statement (.wrReserved30 v) := by rfl
theorem rdReserved38 : Statement (.rdReserved38) := by rfl
theorem wrReserved38 (v : Word) : Statement (.wrReserved38 v) := by rfl
theorem rdReserved40 : Statement (.rdReserved40) := by rfl
theorem wrReserved40 (v : Word) : Statement (.wrReserved40 v) := by rfl
theorem rdReserved48 : Statement (.rdReserved48) := by rfl
theorem wrReserved48 (v : Word) : Statement (.wrReserved48 v) := by rfl
theorem rdReserved50 : Statement (.rdReserved50) := by rfl
theorem wrReserved50 (v : Word) : Statement (.wrReserved50 v) := by rfl
theorem rdReserved58 : Statement (.rdReserved58) := by rfl
theorem wrReserved58 (v : Word) : Statement (.wrReserved58 v) := by rfl
theorem rdReserved60 : Statement (.rdReserved60) := by rfl
theorem wrReserved60 (v : Word) : Statement (.wrReserved60 v) := by rfl
theorem rdReserved68 : Statement (.rdReserved68) := by rfl
theorem wrReserved68 (v : Word) : Statement (.wrReserved68 v) := by rfl
theorem rdReserved70 : Statement (.rdReserved70) := by rfl
theorem wrReserved70 (v : Word) : Statement (.wrReserved70 v) := by rfl
theorem rdReserved78 : Statement (.rdReserved78) := by rfl
theorem wrReserved78 (v : Word) : Statement (.wrReserved78 v) := by rfl
theorem rdReserved80 : Statement (.rdReserved80) := by rfl
theorem wrReserved80 (v : Word) : Statement (.wrReserved80 v) := by rfl
theorem rdReserved88 : Statement (.rdReserved88) := by rfl
theorem wrReserved88 (v : Word) : Statement (.wrReserved88 v) := by rfl
theorem rdReserved90 : Statement (.rdReserved90) := by rfl
theorem wrReserved90 (v : Word) : Statement (.wrReserved90 v) := by rfl
theorem rdReserved98 : Statement (.rdReserved98) := by rfl
theorem wrReserved98 (v : Word) : Statement (.wrReserved98 v) := by rfl
theorem rdReservedA0 : Statement (.rdReservedA0) := by rfl
theorem wrReservedA0 (v : Word) : Statement (.wrReservedA0 v) := by rfl
theorem rdReservedA8 : Statement (.rdReservedA8) := by rfl
theorem wrReservedA8 (v : Word) : Statement (.wrReservedA8 v) := by rfl
theorem rdReservedB0 : Statement (.rdReservedB0) := by rfl
theorem wrReservedB0 (v : Word) : Statement (.wrReservedB0 v) := by rfl
theorem rdReservedB8 : Statement (.rdReservedB8) := by rfl
theorem wrReservedB8 (v : Word) : Statement (.wrReservedB8 v) := by rfl
theorem rdReservedC0 : Statement (.rdReservedC0) := by rfl
theorem wrReservedC0 (v : Word) : Statement (.wrReservedC0 v) := by rfl
theorem rdReservedC8 : Statement (.rdReservedC8) := by rfl
theorem wrReservedC8 (v : Word) : Statement (.wrReservedC8 v) := by rfl
theorem rdReservedD0 : Statement (.rdReservedD0) := by rfl
theorem wrReservedD0 (v : Word) : Statement (.wrReservedD0 v) := by rfl
theorem rdReservedD8 : Statement (.rdReservedD8) := by rfl
theorem wrReservedD8 (v : Word) : Statement (.wrReservedD8 v) := by rfl
theorem rdReservedE0 : Statement (.rdReservedE0) := by rfl
theorem wrReservedE0 (v : Word) : Statement (.wrReservedE0 v) := by rfl
theorem rdReservedE8 : Statement (.rdReservedE8) := by rfl
theorem wrReservedE8 (v : Word) : Statement (.wrReservedE8 v) := by rfl
theorem rdReservedF0 : Statement (.rdReservedF0) := by rfl
theorem wrReservedF0 (v : Word) : Statement (.wrReservedF0 v) := by rfl
theorem rdReservedF8 : Statement (.rdReservedF8) := by rfl
theorem wrReservedF8 (v : Word) : Statement (.wrReservedF8 v) := by rfl
theorem unadmittedAccess (write : Bool) (off : BitVec 8) (data : Word) :
    Statement (.unadmittedAccess write off data) := by rfl

end Sys2Proof.Laws.Form
end

