-- ==== Sys2Proof/Laws/Step.lean ====
section
/-! SUPPORT. The inversion of `step`: the one list of what a step can have done to memory and to the instances. -/

namespace Sys2Proof.Machine

/-- An answer that goes on went on at both parts. -/
theorem onNext_next {r : Answer} {f : State → Answer} {t : State} (h : onNext r f = .next t) :
    ∃ u, r = .next u ∧ f u = .next t := by
  unfold onNext at h
  split at h
  · exact ⟨_, rfl, h⟩
  · cases h
  · cases h

/-- Going on from a next state. -/
@[simp] theorem onNext_of_next (u : State) (f : State → Answer) : onNext (.next u) f = f u := rfl

/-- What a host line other than `memwr` can do: nothing to the instances, or one register access on one of them. -/
inductive LineEffect (s t : State) : Prop where
  | quiet (he : t.engines = s.engines)
  | access (k : Nat) (e f : Engine) (hk : s.engines[k]? = some e) (hf : AccessEffect s.cfg e f)
      (he : t.engines = s.engines.set k f)

/-- The parts of the state a host line other than `memwr` leaves alone, and `target` stays the number of an instance. -/
structure LineFrame (s t : State) : Prop where
  cfg    : t.cfg = s.cfg
  mem    : t.mem = s.mem
  target : s.target < s.engines.length → t.target < s.engines.length
  effect : LineEffect s t

/-- An encoded form given to an instance. -/
theorem issue_frame {k : Nat} {x : Encoded} {s t : State} (h : issue k x s = .next t) : LineFrame s t := by
  obtain ⟨e, f, he, hf, ⟨v, rfl, rfl⟩ | rfl⟩ := exec_result h
  all_goals
    have hk : k < s.engines.length := (List.getElem?_eq_some_iff.1 he).1
  · exact ⟨rfl, rfl, fun _ => hk, .quiet rfl⟩
  · exact ⟨rfl, rfl, fun _ => hk, .access k e f he hf rfl⟩

/-- A bus access that completes is an admitted access to a window. -/
theorem busAccess_issue {a : BusAccess} {s t : State} (h : busAccess a s = .next t) :
    ∃ k off, s.cfg.windowOf a.addr = some (k, off) ∧ a.size = 8 ∧
      issue k (.access (descriptor a.write off) (if a.write then a.data else 0)) s = .next t := by
  unfold busAccess at h
  split at h
  · cases h
  · split at h
    · exact ⟨_, _, ‹_›, ‹_›, h⟩
    · cases h

/-- A bus access. -/
theorem busAccess_frame {a : BusAccess} {s t : State} (h : busAccess a s = .next t) : LineFrame s t := by
  obtain ⟨k, off, -, -, h⟩ := busAccess_issue h
  exact issue_frame h

/-- A line that goes on to change only the host agents. -/
theorem LineFrame.withHosts {s t : State} (h : LineFrame s t) (hs : List HostAgent) :
    LineFrame s { t with hosts := hs } := by
  obtain ⟨h1, h2, h3, h4⟩ := h
  refine ⟨h1, h2, h3, ?_⟩
  cases h4 with
  | quiet he => exact .quiet he
  | access k e f hk hf he => exact .access k e f hk hf he

/-- Binding a name changes only the host agents. -/
theorem bindRead_hosts (j : Nat) (b : Option Nat) (s : State) : ∃ hs, bindRead j b s = { s with hosts := hs } := by
  unfold bindRead
  split
  · exact ⟨_, rfl⟩
  · exact ⟨s.hosts, rfl⟩

/-- A line that changes only the host agents. -/
theorem LineFrame.refl_hosts (s : State) (hs : List HostAgent) : LineFrame s { s with hosts := hs } :=
  ⟨rfl, rfl, id, .quiet rfl⟩

/-- What a `memwr` line that completes does to memory and to the instances. -/
structure MemwrEffect (addr : Nat) (bytes : List Byte) (s t : State) : Prop where
  cfg     : t.cfg = s.cfg
  target  : t.target = s.target
  space   : addr + bytes.length ≤ 2 ^ s.cfg.addrW
  mem     : t.mem = s.mem.writeBytes addr bytes
  engines : t.engines = s.engines.map (Engine.noteWrite { base := addr, size := bytes.length })

/-- A `memwr` line that completes. -/
theorem hostMemwr_effect {j addr : Nat} {bytes : List Byte} {s t : State} (h : hostMemwr j addr bytes s = .next t) :
    MemwrEffect addr bytes s t := by
  unfold hostMemwr at h
  simp only at h
  split at h
  · cases h
  · split at h
    · cases h
    · split at h <;> cases h <;> exact ⟨rfl, rfl, by omega, rfl, rfl⟩

/-- One line of a host agent: a `memwr`, or a line that writes no memory. -/
theorem hostLine_cases {j : Nat} {l : HostLine} {s t : State} (h : hostLine j l s = .next t) :
    (∃ addr bytes, l = .memwr addr bytes ∧ MemwrEffect addr bytes s t) ∨ LineFrame s t := by
  cases l with
  | bus a b =>
    right
    obtain ⟨u, hu, ht⟩ := onNext_next h
    have hf := busAccess_frame hu
    split at ht
    · cases ht; exact hf
    · cases ht
      obtain ⟨hs, hh⟩ := bindRead_hosts j b u
      rw [hh]; exact hf.withHosts hs
  | command k w => exact .inr (issue_frame h)
  | poll addr c =>
    right
    obtain ⟨u, hu, ht⟩ := onNext_next h
    have hf := busAccess_frame hu
    split at ht
    · cases ht; exact hf
    · split at ht
      · cases ht; exact hf.withHosts _
      · cases ht; exact hf
  | memwr addr bytes => exact .inl ⟨addr, bytes, rfl, hostMemwr_effect h⟩
  | fence =>
    right
    simp only [hostLine, hostFence] at h
    split at h <;> cases h
    · exact .refl_hosts _ _
    · exact .refl_hosts _ s.hosts

/-- The choice of the next agent changes only the schedule and the count of free values. -/
theorem nextAgent_frame (s : State) : ∃ sc n, (nextAgent s).2 = { s with sched := sc, free := n } := by
  unfold nextAgent
  split
  · exact ⟨_, s.free, rfl⟩
  · split
    · exact ⟨s.sched, s.free, rfl⟩
    · exact ⟨s.sched, _, rfl⟩

/-- What one step can do to memory and to the instances (R15): it moves one agent. -/
inductive StepEffect (s t : State) : Prop where
  | quiet (hm : t.mem = s.mem) (he : t.engines = s.engines)
  | engine (k n : Nat) (e : Engine) (ha : (nextAgent s).1 = some (.engine k)) (hk : s.engines[k]? = some e)
      (hp : e.phase ≠ .idle) (hm : t.mem = s.mem) (he : t.engines = s.engines.set k (e.advance s.cfg s.mem n))
  | reset (k n : Nat) (ha : (nextAgent s).1 = some (.reset k)) (hm : t.mem = s.mem)
      (he : t.engines = s.engines.set k (Engine.afterReset n))
  | access (j k : Nat) (e f : Engine) (ha : (nextAgent s).1 = some (.host j)) (hk : s.engines[k]? = some e)
      (hf : AccessEffect s.cfg e f) (hm : t.mem = s.mem) (he : t.engines = s.engines.set k f)
  | memwr (j addr : Nat) (bytes : List Byte) (h : HostAgent) (lines : List HostLine)
      (ha : (nextAgent s).1 = some (.host j)) (hh : s.hosts[j]? = some h) (hl : h.prog = .memwr addr bytes :: lines)
      (hs : addr + bytes.length ≤ 2 ^ s.cfg.addrW) (hm : t.mem = s.mem.writeBytes addr bytes)
      (he : t.engines = s.engines.map (Engine.noteWrite { base := addr, size := bytes.length }))

/-- The inversion of `step`: the parameters stay, `target` stays the number of an instance, and one of the effects above happens. -/
theorem step_cases {s t : State} (h : step s = .next t) :
    t.cfg = s.cfg ∧ (s.target < s.engines.length → t.target < s.engines.length) ∧ StepEffect s t := by
  obtain ⟨sc, n, hn⟩ := nextAgent_frame s
  unfold step at h
  split at h
  · rename_i u hu
    cases h
    have : t = { s with sched := sc, free := n } := by rw [← hn, hu]
    subst this
    exact ⟨rfl, id, .quiet rfl rfl⟩
  · rename_i a u hu
    have : u = { s with sched := sc, free := n } := by rw [← hn, hu]
    subst this
    have ha : (nextAgent s).1 = some a := by rw [hu]
    cases a with
    | engine k =>
      simp only [move] at h
      cases h
      unfold engineMove
      simp only
      split
      · exact ⟨rfl, id, .quiet rfl rfl⟩
      · split
        · exact ⟨rfl, id, .quiet rfl rfl⟩
        · exact ⟨rfl, id, .engine k n _ ha ‹_› ‹_› rfl rfl⟩
    | reset k =>
      simp only [move] at h
      cases h
      exact ⟨rfl, id, .reset k n ha rfl rfl⟩
    | host j =>
      simp only [move, hostMove] at h
      split at h
      · cases h; exact ⟨rfl, id, .quiet rfl rfl⟩
      · rename_i h' hj
        split at h
        · cases h; exact ⟨rfl, id, .quiet rfl rfl⟩
        · rename_i l rest hl
          rcases hostLine_cases h with ⟨addr, bytes, rfl, hm⟩ | hf
          · exact ⟨hm.cfg, fun ht => hm.target ▸ ht,
              .memwr j addr bytes h' rest ha hj hl hm.space hm.mem hm.engines⟩
          · refine ⟨hf.cfg, hf.target, ?_⟩
            cases hf.effect with
            | quiet he => exact .quiet hf.mem he
            | access k e f hk hx he => exact .access j k e f ha hk hx hf.mem he

/-- The head of the schedule moves next. -/
theorem nextAgent_sched {s : State} {a : Agent} {rest : List Agent} (h : s.sched = a :: rest) :
    nextAgent s = (some a, { s with sched := rest }) := by simp [nextAgent, h]

/-- A step with a schedule moves its head. -/
theorem step_sched {s : State} {a : Agent} {rest : List Agent} (h : s.sched = a :: rest) :
    step s = move a { s with sched := rest } := by simp [step, nextAgent_sched h]

/-- A step that takes a line off a host agent runs that line. -/
theorem step_hostLine {s : State} {j : Nat} {h : HostAgent} {l : HostLine} {rest : List Agent} {lines : List HostLine}
    (hs : s.sched = .host j :: rest) (hj : s.hosts[j]? = some h) (hl : h.prog = l :: lines) :
    step s = hostLine j l { s with sched := rest, hosts := s.hosts.set j { h with prog := lines } } := by
  rw [step_sched hs]
  simp only [move, hostMove, hj, hl]
  rfl

end Sys2Proof.Machine
end

