-- ==== Sys2Proof/Laws/Sequencer.lean ====
section
/-! SUPPORT. What an engine step can do, and what any step can do to one instance. -/

namespace Sys2Proof.Machine

/-- An engine step acts, all its reads answered, or aborts (R170). -/
theorem advance_cases (c : Config) (m : Memory) (n : Nat) (e : Engine) :
    (e.readsOk c = true ∧ e.advance c m n = e.act c.secret (e.bytes m) (Config.freeWord n)) ∨
      (e.readsOk c = false ∧ e.advance c m n = e.abort n) := by
  unfold Engine.advance
  split
  · exact .inl ⟨‹_›, rfl⟩
  · rename_i h
    exact .inr ⟨by simpa using h, rfl⟩

/-- A step that uses no byte has its reads answered. -/
theorem readsOk_of_no_needs {c : Config} {e : Engine} (h : e.needs = []) : e.readsOk c = true := by
  simp [Engine.readsOk, h]

/-- An action other than FIN2 writes only `PHASE` and the datapath registers (R171 to R176). -/
theorem act_keeps (S : SecretTable) (B : Nat → Byte) (v : Word) (e : Engine) (h : e.phase ≠ .fin2) :
    let f := e.act S B v
    f.busy = e.busy ∧ f.done = e.done ∧ f.err = e.err ∧ f.errCode = e.errCode ∧ f.result = e.result ∧
      f.seed = e.seed ∧ f.src = e.src ∧ f.len = e.len ∧ f.lSeed = e.lSeed ∧ f.lSrc = e.lSrc ∧ f.lLen = e.lLen ∧
      f.raced = e.raced := by
  unfold Engine.act
  split
  · simp
  · unfold stepInit
    simp only
    split <;> [skip; split] <;> simp
  · simp [stepShort]
  · unfold stepBulk
    simp only
    split <;> simp
  · simp [stepFold16]
  · simp [stepTail]
  · simp [stepFin1]
  · contradiction

/-- No action writes the latched operands. -/
theorem act_latched (S : SecretTable) (B : Nat → Byte) (v : Word) (e : Engine) :
    (e.act S B v).lSrc = e.lSrc ∧ (e.act S B v).lLen = e.lLen ∧ (e.act S B v).lSeed = e.lSeed ∧
      (e.act S B v).raced = e.raced := by
  by_cases h : e.phase = .fin2
  · simp [Engine.act, h, stepFin2]
  · obtain ⟨-, -, -, -, -, -, -, -, h1, h2, h3, h4⟩ := act_keeps S B v e h
    exact ⟨h2, h3, h1, h4⟩

/-- The bytes of an operation depend on its buffer address alone. -/
theorem bytes_congr {m : Memory} {e f : Engine} (h : f.lSrc = e.lSrc) : f.bytes m = e.bytes m := by
  funext k
  simp only [Engine.bytes, h]

/-- The offsets `k .. k + n - 1`. -/
theorem mem_offsets {k n o : Nat} : o ∈ offsets k n ↔ k ≤ o ∧ o < k + n := by
  simp only [offsets, List.mem_map, List.mem_range]
  constructor
  · rintro ⟨j, hj, rfl⟩
    omega
  · intro h
    exact ⟨o - k, by omega, by omega⟩

/-- A write of a host agent touches only `raced`. -/
theorem noteWrite_eq (r : Region) (e : Engine) : ∃ b, e.noteWrite r = { e with raced := b } := by
  unfold Engine.noteWrite
  split
  · exact ⟨true, rfl⟩
  · exact ⟨e.raced, rfl⟩

/-- Instance `j` after instance `k` is replaced. -/
theorem get_set_cases {es : List Engine} {k j : Nat} {f g e : Engine} (h : (es.set k f)[j]? = some g)
    (he : es[j]? = some e) : (j = k ∧ g = f) ∨ (j ≠ k ∧ g = e) := by
  by_cases hjk : j = k
  · subst hjk
    have := (List.getElem?_eq_some_iff.1 he).1
    simp [this] at h
    exact .inl ⟨rfl, h.symm⟩
  · rw [List.getElem?_set_ne (Ne.symm hjk), he] at h
    exact .inr ⟨hjk, by cases h; rfl⟩

/-- What one step can do to instance `k` (R15): nothing, a race noted, its own engine step, its reset, or a register access. -/
inductive EngineEffect (s : State) (k : Nat) (e : Engine) : Engine → Prop where
  | same : EngineEffect s k e e
  | noted (b : Bool) : EngineEffect s k e { e with raced := b }
  | advanced (n : Nat) (ha : (nextAgent s).1 = some (.engine k)) (hp : e.phase ≠ .idle) :
      EngineEffect s k e (e.advance s.cfg s.mem n)
  | reset (n : Nat) (ha : (nextAgent s).1 = some (.reset k)) : EngineEffect s k e (Engine.afterReset n)
  | accessed (f : Engine) (hf : AccessEffect s.cfg e f) : EngineEffect s k e f

/-- The inversion of `step` for one instance. -/
theorem step_engineEffect {s t : State} {k : Nat} {e f : Engine} (h : step s = .next t) (he : s.engines[k]? = some e)
    (hf : t.engines[k]? = some f) : EngineEffect s k e f := by
  obtain ⟨-, -, h⟩ := step_cases h
  cases h with
  | quiet hm hE => rw [hE, he] at hf; cases hf; exact .same
  | engine k' n e' ha hk hp hm hE =>
    rw [hE] at hf
    rcases get_set_cases hf he with ⟨rfl, rfl⟩ | ⟨-, rfl⟩
    · rw [hk] at he; cases he; exact .advanced n ha hp
    · exact .same
  | reset k' n ha hm hE =>
    rw [hE] at hf
    rcases get_set_cases hf he with ⟨rfl, rfl⟩ | ⟨-, rfl⟩
    · exact .reset n ha
    · exact .same
  | access j k' e' f' ha hk hx hm hE =>
    rw [hE] at hf
    rcases get_set_cases hf he with ⟨rfl, rfl⟩ | ⟨-, rfl⟩
    · rw [hk] at he; cases he; exact .accessed _ hx
    · exact .same
  | memwr j addr bytes h lines ha hh hl hs hm hE =>
    rw [hE, List.getElem?_map, he] at hf
    cases hf
    obtain ⟨b, hb⟩ := noteWrite_eq { base := addr, size := bytes.length } e
    simp only [hb]
    exact .noted b

/-- No step changes the number of instances. -/
theorem step_instances {s t : State} (h : step s = .next t) : t.engines.length = s.engines.length := by
  cases (step_cases h).2.2 <;> simp_all

/-- The engine of instance `k`, enabled and next in the schedule, takes one step. -/
theorem step_engine {s : State} {k : Nat} {e : Engine} {rest : List Agent} (h : s.sched = .engine k :: rest)
    (he : s.engines[k]? = some e) (hp : e.phase ≠ .idle) :
    step s = .next { s with
      sched := rest
      engines := s.engines.set k (e.advance s.cfg s.mem s.free)
      free := s.free + drawsPerMove } := by
  rw [step_sched h]
  simp only [move, engineMove, he, if_neg hp]
  rfl

end Sys2Proof.Machine
end

