-- ==== Sys2Proof/Tests/Slice0.lean ====
section
/-! SUPPORT. The model's own tests. Part 1: words written out from the spec's encodings, and what they decode to. Part 2: well-formedness.
Part 3: single steps against the vectors of spec/95_test_vectors.md. Part 4: for every statement with hypotheses, a state and operands that
meet them all, clause by clause. -/

namespace Sys2Proof.Tests

open Sys2Proof.Machine

/-! ### Part 1: decoding (spec/30_encoding.md R71, R72, R75) -/

/-- Every admitted read descriptor of R75, as its two bytes, and the access it names. -/
def readWords : List (List Byte × Instr) :=
  [([0x00, 0x00], .rdCmd), ([0x08, 0x00], .rdStatus), ([0x10, 0x00], .rdSeed), ([0x18, 0x00], .rdSrc),
  ([0x20, 0x00], .rdLen), ([0x28, 0x00], .rdResult), ([0x30, 0x00], .rdReserved30), ([0x38, 0x00], .rdReserved38),
  ([0x40, 0x00], .rdReserved40), ([0x48, 0x00], .rdReserved48), ([0x50, 0x00], .rdReserved50),
  ([0x58, 0x00], .rdReserved58), ([0x60, 0x00], .rdReserved60), ([0x68, 0x00], .rdReserved68),
  ([0x70, 0x00], .rdReserved70), ([0x78, 0x00], .rdReserved78), ([0x80, 0x00], .rdReserved80),
  ([0x88, 0x00], .rdReserved88), ([0x90, 0x00], .rdReserved90), ([0x98, 0x00], .rdReserved98),
  ([0xA0, 0x00], .rdReservedA0), ([0xA8, 0x00], .rdReservedA8), ([0xB0, 0x00], .rdReservedB0),
  ([0xB8, 0x00], .rdReservedB8), ([0xC0, 0x00], .rdReservedC0), ([0xC8, 0x00], .rdReservedC8),
  ([0xD0, 0x00], .rdReservedD0), ([0xD8, 0x00], .rdReservedD8), ([0xE0, 0x00], .rdReservedE0),
  ([0xE8, 0x00], .rdReservedE8), ([0xF0, 0x00], .rdReservedF0), ([0xF8, 0x00], .rdReservedF8)]

/-- Every admitted write descriptor of R75, as its two bytes, and the access it names. -/
def writeWords (v : Word) : List (List Byte × Instr) :=
  [([0x00, 0x01], .wrCmd v), ([0x08, 0x01], .wrStatus v), ([0x10, 0x01], .wrSeed v), ([0x18, 0x01], .wrSrc v),
  ([0x20, 0x01], .wrLen v), ([0x28, 0x01], .wrResult v), ([0x30, 0x01], .wrReserved30 v),
  ([0x38, 0x01], .wrReserved38 v), ([0x40, 0x01], .wrReserved40 v), ([0x48, 0x01], .wrReserved48 v),
  ([0x50, 0x01], .wrReserved50 v), ([0x58, 0x01], .wrReserved58 v), ([0x60, 0x01], .wrReserved60 v),
  ([0x68, 0x01], .wrReserved68 v), ([0x70, 0x01], .wrReserved70 v), ([0x78, 0x01], .wrReserved78 v),
  ([0x80, 0x01], .wrReserved80 v), ([0x88, 0x01], .wrReserved88 v), ([0x90, 0x01], .wrReserved90 v),
  ([0x98, 0x01], .wrReserved98 v), ([0xA0, 0x01], .wrReservedA0 v), ([0xA8, 0x01], .wrReservedA8 v),
  ([0xB0, 0x01], .wrReservedB0 v), ([0xB8, 0x01], .wrReservedB8 v), ([0xC0, 0x01], .wrReservedC0 v),
  ([0xC8, 0x01], .wrReservedC8 v), ([0xD0, 0x01], .wrReservedD0 v), ([0xD8, 0x01], .wrReservedD8 v),
  ([0xE0, 0x01], .wrReservedE0 v), ([0xE8, 0x01], .wrReservedE8 v), ([0xF0, 0x01], .wrReservedF0 v),
  ([0xF8, 0x01], .wrReservedF8 v)]

/-- R75. -/
theorem test_decode_reads : ∀ p ∈ readWords, (decodeBytes p.1).toOption = some p.2 := by decide

/-- R75; the data 0x0123456789abcdef follows, least significant byte first. -/
theorem test_decode_writes : ∀ p ∈ writeWords 0x0123456789abcdef,
    (decodeBytes (p.1 ++ [0xef, 0xcd, 0xab, 0x89, 0x67, 0x45, 0x23, 0x01])).toOption = some p.2 := by decide

/-- R71, R73. -/
theorem test_decode_nop : (decodeBytes [0, 0, 0, 0, 0, 0, 0, 0]).toOption = some .nop := by decide

/-- R71, R73. -/
theorem test_decode_digest : (decodeBytes [1, 0, 0, 0, 0, 0, 0, 0]).toOption = some .digest := by decide

/-- V-DEC. -/
theorem test_decode_illegal : ([0x2, 0xff, 0x100, 0x101, 0x8000000000000001, 0xffffffffffffffff] : List Word).all
    (fun w => decide (decode (.command w) = .illegal w)) = true := by decide

/-- R75: `off[2:0] != 0`. -/
theorem test_decode_unadmitted : (decodeBytes [0x04, 0x00]).toOption = some (.unadmittedAccess false 0x04 0) ∧
    (decodeBytes [0x29, 0x01, 7, 0, 0, 0, 0, 0, 0, 0]).toOption = some (.unadmittedAccess true 0x29 7) := by decide

/-- R77: neither form. -/
theorem test_decode_rejects : (decodeBytes []).toOption = none ∧ (decodeBytes [0, 0, 0, 0]).toOption = none ∧
    (decodeBytes [0x08, 0x02]).toOption = none ∧ (decodeBytes [0x08, 0x01]).toOption = none ∧
    (decodeBytes [0x08, 0, 0, 0, 0, 0, 0, 0, 0, 0]).toOption = none := by decide

/-- The encoder gives the same words. -/
theorem test_encode_reads : ∀ p ∈ readWords, encodeBytes p.2 = p.1 := by decide

/-- The encoder gives the same words. -/
theorem test_encode_writes : ∀ p ∈ writeWords 0x0123456789abcdef,
    encodeBytes p.2 = p.1 ++ [0xef, 0xcd, 0xab, 0x89, 0x67, 0x45, 0x23, 0x01] := by decide

/-- Words numbered as the opcode table numbers them. -/
theorem test_table_words : decodeTableWord 64 0x1 = some .digest ∧ decodeTableWord 64 0x101 = some (.illegal 0x101) ∧
    decodeTableWord 16 0x028 = some .rdResult ∧ decodeTableWord 16 0x110 = some (.wrSeed 0) ∧
    decodeTableWord 80 0x50110 = some (.wrSeed 5) := by decide

/-! ### Part 2: well-formedness -/

/-- 0x0 and 0x1 are no ILLEGAL words (R71). -/
theorem smoke_illegal_nop : Instr.wf (.illegal 0x0) = false := by decide

/-- 0x0 and 0x1 are no ILLEGAL words (R71). -/
theorem smoke_illegal_digest : Instr.wf (.illegal 0x1) = false := by decide

/-- An offset that is a multiple of 8 is admitted (R75). -/
theorem smoke_unadmitted_aligned : Instr.wf (.unadmittedAccess true 0x08 0) = false := by decide

/-- A read carries no data. -/
theorem smoke_unadmitted_read_data : Instr.wf (.unadmittedAccess false 0x04 5) = false := by decide

/-- `ADDR_W` is at least 1 (R7). -/
theorem smoke_config_addrW_low : Config.wf { Config.default with addrW := 0 } = false := by decide

/-- `ADDR_W` is at most 64 (R7). -/
theorem smoke_config_addrW_high : Config.wf { Config.default with addrW := 65 } = false := by decide

/-- `N_INST` is at least 1 (R7). -/
theorem smoke_config_no_instance : Config.wf { Config.default with bases := [] } = false := by decide

/-- `BASE` is a multiple of 0x100 (R7). -/
theorem smoke_config_base_misaligned : Config.wf { Config.default with bases := [0x80] } = false := by decide

/-- Each instance has its own `BASE` (R210). -/
theorem smoke_config_base_twice : Config.wf { Config.default with bases := [0x100, 0x100] } = false := by decide

/-- What passes the checks. -/
theorem smoke_well_formed : Config.default.wf = true ∧ Instr.wf (.illegal 0x2) = true ∧
    Instr.wf (.unadmittedAccess true 0x0c 9) = true ∧ Instr.wf (.unadmittedAccess false 0x07 0) = true := by decide

/-! ### Part 3: single steps -/

/-- The reset state with instance 0 as given. -/
def withEngine (e : Engine) : State := { State.reset with engines := [e] }

/-- The bytes `"abc"` at 0x1000. -/
def abcMem : Memory := [(0x1000, 0x61), (0x1001, 0x62), (0x1002, 0x63)]

/-- `pat(n)` of 95_test_vectors.md. -/
def pat : Nat → Byte := fun k => BitVec.ofNat 8 k

/-- `pat(n)` at 0x4000. -/
def patMem (n : Nat) : Memory := Memory.writeBytes [] 0x4000 ((List.range n).map pat)

/-- An instance with an operation in progress. -/
def running (p : Phase) (src len seed : Word) : Engine :=
  { Engine.reset with busy := true, phase := p, lSrc := src, lLen := len, lSeed := seed }

/-- Instance 0 takes the next step. -/
def engineNext (e : Engine) (m : Memory) : State := { withEngine e with mem := m, sched := [.engine 0] }

/-- Host agent 0 takes the next step, with the one line given. -/
def hostNext (l : HostLine) : State :=
  { State.reset with sched := [.host 0], hosts := [{ HostAgent.reset with prog := [l] }] }

/-- The next state, if any. -/
def nextState : Answer → Option State
  | .next s => some s
  | .fault _ => none
  | .refused _ => none

/-- Instance 0 of the next state, if any. -/
def nextEngine (r : Answer) : Option Engine := (nextState r).bind fun s => s.engines[0]?

/-- V-REG. -/
theorem test_rd_status_reset : (nextState (exec .rdStatus State.reset)).map (·.rdata) = some 0x0 := by decide

/-- P3 line 2. -/
theorem test_rd_status_error :
    (nextState (exec .rdStatus (withEngine (Engine.reset.raiseError .illegalCmd)))).map (·.rdata) = some 0x106 := by
  decide

/-- V-REG. -/
theorem test_wr_seed : (nextEngine (exec (.wrSeed 0x0123456789abcdef) State.reset)).map (·.seed) =
    some 0x0123456789abcdef := by decide

/-- V-REG. -/
theorem test_wr_src : (nextEngine (exec (.wrSrc 0xffffffffffffffff) State.reset)).map (·.src) =
    some 0xffffffffffffffff := by decide

/-- V-REG: a write of 7 to `STATUS` is ignored. -/
theorem test_wr_status : (nextEngine (exec (.wrStatus 0x7) State.reset)).map (·.statusWord) = some 0x0 := by decide

/-- V-REG: a write of `RESULT` is ignored. -/
theorem test_wr_result : (nextEngine (exec (.wrResult 0x1234) State.reset)).map (·.result) = some 0x0 := by decide

/-- V-DEC: `STATUS` after an illegal word while idle, and while busy. -/
theorem test_wr_cmd_illegal : ([0x2, 0xff, 0x100, 0x101] : List Word).map (fun w =>
      ((nextEngine (exec (.wrCmd w) State.reset)).map (·.statusWord),
        (nextEngine (exec (.wrCmd w) (withEngine (running .init 0 0 0)))).map (·.statusWord))) =
    List.replicate 4 (some 0x106, some 0x1) := by decide

/-- V-RNG: refused rows. -/
theorem test_digest_range : ([(0xffffffffffffffff, 0x2), (0xfffffffffffffff8, 0x10), (0x2, 0xffffffffffffffff)] :
    List (Word × Word)).map (fun p => (nextEngine (exec .digest (withEngine { Engine.reset with src := p.1, len := p.2 }))).map
      (·.statusWord)) = List.replicate 3 (some 0x306) := by decide

/-- V-RNG: accepted rows. -/
theorem test_digest_accepted : ([(0x0, 0x0), (0xffffffffffffffff, 0x0), (0xffffffffffffffff, 0x1),
    (0xfffffffffffffff0, 0x10), (0x0, 0xffffffffffffffff), (0x1, 0xffffffffffffffff)] : List (Word × Word)).map
    (fun p => (nextEngine (exec .digest (withEngine { Engine.reset with src := p.1, len := p.2 }))).map
      (fun e => (e.statusWord, e.phase))) = List.replicate 6 (some (0x1, .init)) := by decide

/-- V-RNG with `ADDR_W = 32`. -/
theorem test_range_32 : rangeOk { Config.default with addrW := 32 } 0xffffffff 1 = true ∧
    rangeOk { Config.default with addrW := 32 } 0x100000000 1 = false ∧
    rangeOk { Config.default with addrW := 32 } 0x100000000 0 = true := by decide

/-- V-MUM. -/
theorem test_mum : mum 0x2d358dccaa6c78a5 0x8bb84b93962eacc9 = (0xd22da4200bdf958d, 0x18ac9fd4cc746524) := by decide

/-- V-MIX. -/
theorem test_mix : mix 0x0123456789abcdef 0xfedcba9876543210 = 0x2317228f48165bb2 := by decide

/-- V-RD. -/
theorem test_reads : r8 pat 1 = 0x0807060504030201 ∧ r4 pat 5 = 0x08070605 ∧ r3 pat 3 = 0x102 ∧ r3 pat 1 = 0 := by
  decide

/-- V-READ: the offsets SHORT reads for `n = 16`. -/
theorem test_short_needs : shortNeeds 16 = [0, 1, 2, 3, 8, 9, 10, 11, 12, 13, 14, 15, 4, 5, 6, 7] ∧
    shortNeeds 2 = [0, 1, 1] ∧ shortNeeds 0 = [] := by decide

/-- V-STEP. -/
theorem test_step_counts : [0, 16, 17, 33, 47, 48, 95, 143, 144, 256].map stepCount =
    [4, 4, 5, 6, 6, 5, 7, 8, 7, 9] := by decide

/-- V-TR-6: INIT. -/
theorem test_init_step : (nextEngine (step (engineNext (running .init 0x4000 100 0) []))).map
    (fun e => (e.acc0, e.acc2, e.off, e.rem, e.phase)) =
    some (0xca813bf4c7abf0a9, 0xca813bf4c7abf0a9, 0, 100, .bulk) := by decide

/-- V-TR-5: BULK and the merge. -/
theorem test_bulk_step : (nextEngine (step (engineNext { running .bulk 0x4000 48 0 with
      acc0 := 0xca813bf4c7abf0a9, acc1 := 0xca813bf4c7abf0a9, acc2 := 0xca813bf4c7abf0a9, rem := 48 } (patMem 48)))).map
    (fun e => (e.acc0, e.acc1, e.acc2, e.off, e.rem, e.phase)) =
    some (0x3d7fa8c652d377e2, 0xe4f27cd3536ac543, 0x339df2aec5dbfb46, 48, 0, .tail) := by decide

/-- V-TR-7: the first FOLD16. -/
theorem test_fold_step : (nextEngine (step (engineNext { running .fold16 0x4000 33 0 with
      acc0 := 0xca813bf4c7abf0a9, rem := 33 } (patMem 33)))).map (fun e => (e.acc0, e.off, e.rem, e.phase)) =
    some (0xea1026bbc46249e7, 16, 17, .fold16) := by decide

/-- V-TR-9: SHORT with `q = 8`. -/
theorem test_short_step : (nextEngine (step (engineNext (running .short 0x4000 16 0) (patMem 16)))).map
    (fun e => (e.fa, e.fb, e.phase)) = some (0x030201000b0a0908, 0x0f0e0d0c07060504, .fin1) := by decide

/-- V-TR-8: TAIL. -/
theorem test_tail_step : (nextEngine (step (engineNext { running .tail 0x4000 17 0 with off := 16, rem := 1 }
      (patMem 17)))).map (fun e => (e.fa, e.fb, e.phase)) =
    some (0x0807060504030201, 0x100f0e0d0c0b0a09, .fin1) := by decide

/-- V-TR-3: FIN1. -/
theorem test_fin1_step : (nextEngine (step (engineNext { running .fin1 0x1000 3 2 with
      acc0 := 0xf132a493f4488a38, fa := 0x616263 } abcMem))).map (fun e => (e.fa, e.fb, e.phase)) =
    some (0xad41025a0eacd930, 0x83a422f783e5ae7c, .fin2) := by decide

/-- V-TR-3 at FIN2. -/
def lastStep : Engine := { running .fin2 0x1000 3 2 with fa := 0xad41025a0eacd930, fb := 0x83a422f783e5ae7c }

/-- V-TR-3: FIN2. -/
theorem test_fin2_step : (nextEngine (step (engineNext lastStep abcMem))).map (fun e => (e.result, e.statusWord, e.phase)) =
    some (0xa97f2f7b1d9b3314, 0x2, .idle) := by decide

/-- `MemOk(a)` is true iff `a < 0x10000` (P4). -/
def lowOnly : Config := { Config.default with memErr := [{ base := 0x10000, size := 2 ^ 64 }] }

/-- P4: the SHORT step at 0xfff8 with `L_LEN = 16` aborts. -/
theorem test_abort : (nextEngine (step { engineNext { running .short 0xfff8 16 0 with result := 7 } [] with cfg := lowOnly })).map
    (fun e => (e.statusWord, e.phase, e.result)) = some (0x206, .idle, 7) := by decide

/-- R220. -/
theorem test_reset_event : (nextEngine (step { withEngine { lastStep with result := 7, seed := 5 } with sched := [.reset 0] })).map
    (fun e => (e.statusWord, e.phase, e.result, e.seed)) = some (0, .idle, 0, 0) := by decide

/-- V-REF-2. -/
theorem test_digest_abc : digest SecretTable.default (fun k => [0x61, 0x62, 0x63].getD k 0) 3 2 = 0xa97f2f7b1d9b3314 := by
  decide

/-- V-LEN, `n = 100`: two bulk rounds. -/
theorem test_digest_pat100 : digest SecretTable.default pat 100 0 = 0x77ed9a7dfb9ac9b7 := by decide

/-- V-SEC, the third table. -/
theorem test_digest_other_table : digest ⟨0xffffffffffffffff, 0xffffffffffffffff, 0xffffffffffffffff, 0xffffffffffffffff⟩
    pat 48 0 = 0xfe9e0675fb7523aa := by decide

/-- R84 `memwr`: the bytes land, and a write of 0 lists nothing. -/
theorem test_memwr : (nextState (step (hostNext (.memwr 0x1000 [0x61, 0x00, 0x63])))).map (·.mem) =
    some [(0x1000, 0x61), (0x1002, 0x63)] := by decide

/-- R84 `poll`: the line stays while the condition fails. -/
theorem test_poll_again : (nextState (step { hostNext (lineWait 0xffffffffffff0000) with
      engines := [running .init 0 0 0] })).map (fun s => (s.hosts.map (·.prog.length), s.rdata)) = some ([1], 0x1) := by
  decide

/-- R66: a write into the buffer of an operation in progress. -/
theorem test_race : (nextState (step { hostNext (.memwr 0x1002 [0]) with
      engines := [running .short 0x1000 3 0] })).map (fun s => s.engines.map (·.raced)) = some [true] := by decide

/-- A word of the opcode table runs as the first instruction after reset. -/
theorem test_fetch_word : (nextEngine (step (State.reset.withFetchWord 64 0x2))).map (·.statusWord) = some 0x106 ∧
    (nextState (step (State.reset.withFetchWord 16 0x008))).map (·.rdata) = some 0 ∧
    (nextEngine (step (State.reset.withFetchWord 80 0x50110))).map (·.seed) = some 5 := by decide

/-! ### Part 4: the statements' hypotheses can be met -/

/-- The state once the line of `hostNext` is taken off. -/
def lineTaken : State := { State.reset with sched := [], hosts := [HostAgent.reset] }

/-- `hostNext` takes its line. -/
theorem witness_takesLine (l : HostLine) : (hostNext l).takesLine 0 l lineTaken := ⟨_, _, _, rfl, rfl, rfl, rfl⟩

/-- The base of `Config.default`'s instance. -/
def base0 : Nat := 0xffffffffffff0000

theorem witness_AccessDescriptorTable : BitVec.extractLsb' 0 3 (0x1ff : BitVec 9) ≠ 0 ∧
    reservedReads[25]? = some .rdReservedF8 ∧ (reservedWrites 7)[25]? = some (.wrReservedF8 7) ∧
    (0x128, Instr.wrResult 7) ∈ namedAccesses 7 := by decide

theorem witness_DecodeOfEncodeIsIdentity : Instr.wf (.illegal 0x101) = true ∧ Instr.wf (.wrSeed 5) = true ∧
    Instr.wf (.unadmittedAccess true 0xff 5) = true := by decide

theorem witness_EncodeOfDecodeIsIdentity : decodeBytes [0xf8, 0x01, 1, 0, 0, 0, 0, 0, 0, 0] = .ok (.wrReservedF8 1) := by
  rfl

theorem witness_StepRunsDecodedInstruction :
    (hostNext (.bus (readAt (base0 + 0xf8)) (some 3))).takesLine 0 (.bus (readAt (base0 + 0xf8)) (some 3)) lineTaken ∧
    State.reset.cfg.windowOf (base0 + 0xf8) = some (0, 0xf8) ∧
    (hostNext (.command 0 0x1)).takesLine 0 (.command 0 0x1) lineTaken :=
  ⟨witness_takesLine _, by decide, witness_takesLine _⟩

theorem witness_PollRepeatsUntilCondition :
    ∃ u, busAccess (readAt (base0 + 8)) lineTaken = .next u ∧ (Cond.maskEq 1 0).holds u.rdata = true ∧
      (Cond.maskEq 1 1).holds u.rdata = false := ⟨_, rfl, by decide, by decide⟩

theorem witness_UnsupportedWindowAccessRefused :
    State.reset.cfg.windowOf (base0 + 0xff) = some (0, 0xff) ∧ (0xff : BitVec 8).toNat % 8 ≠ 0 ∧
    State.reset.cfg.windowOf base0 = some (0, 0x00) ∧
    (hostNext (.bus { addr := base0, size := 4, write := false, data := 0 } none)).takesLine 0
      (.bus { addr := base0, size := 4, write := false, data := 0 } none) lineTaken :=
  ⟨by decide, by decide, by decide, witness_takesLine _⟩

/-- Two instances (P6). -/
def twoBases : Config := { Config.default with bases := [0x100, 0x300] }

theorem witness_WindowsDoNotOverlap : twoBases.wf = true ∧ twoBases.bases[1]? = some 0x300 := by decide

theorem witness_NotationLinesEncode : State.reset.cfg.wf = true ∧ State.reset.cfg.bases[0]? = some base0 ∧
    (hostNext (lineWr base0 .seed 5)).takesLine 0 (lineWr base0 .seed 5) lineTaken ∧
    (hostNext (lineRd base0 .result 1)).takesLine 0 (lineRd base0 .result 1) lineTaken :=
  ⟨by decide, by decide, witness_takesLine _, witness_takesLine _⟩

theorem witness_ZeroRegistersReadZero : State.reset.engine? = some Engine.reset ∧ Instr.rdReservedF8 ∈ reservedReads := by
  decide

theorem witness_StatusReadReturnsFlags : (withEngine (Engine.reset.raiseError .range)).engine? =
    some (Engine.reset.raiseError .range) := by decide

theorem witness_OperandReadsReturnRegisters : (withEngine lastStep).engine? = some lastStep := by decide

theorem witness_OperandWritesStoreAllBits : (withEngine lastStep).engine? = some lastStep ∧ lastStep.busy = true := by decide

theorem witness_ReadOnlyWritesIgnored : (withEngine lastStep).engine? = some lastStep ∧
    Instr.wrReserved30 7 ∈ reservedWrites 7 := by decide

theorem witness_CommandWhileBusyIgnored : (withEngine lastStep).engine? = some lastStep ∧ lastStep.busy = true ∧
    Instr.wrCmd 0x1 ∈ commandsOf 0x1 := by decide

theorem witness_NopChangesNothing : (withEngine lastStep).engine? = some lastStep := by decide

/-- An idle instance with operands. -/
def ready (src len : Word) : Engine := { Engine.reset with src := src, len := len }

theorem witness_DigestAcceptedStartsOperation :
    (withEngine (ready 0xffffffffffffffff 1)).engine? = some (ready 0xffffffffffffffff 1) ∧
    (ready 0xffffffffffffffff 1).busy = false ∧
    (ready 0xffffffffffffffff 1).src.toNat + (ready 0xffffffffffffffff 1).len.toNat ≤ 2 ^ State.reset.cfg.addrW ∧
    (ready 0xffffffffffffffff 0).len = 0 := by decide

theorem witness_DigestOutOfRangeRefused :
    (withEngine (ready 0xffffffffffffffff 2)).engine? = some (ready 0xffffffffffffffff 2) ∧
    (ready 0xffffffffffffffff 2).busy = false ∧ 0 < (ready 0xffffffffffffffff 2).len.toNat ∧
    2 ^ State.reset.cfg.addrW < (ready 0xffffffffffffffff 2).src.toNat + (ready 0xffffffffffffffff 2).len.toNat := by
  decide

theorem witness_IllegalCommandReported : (0x101 : Word) ≠ 0x0 ∧ (0x101 : Word) ≠ 0x1 ∧
    State.reset.engine? = some Engine.reset ∧ Engine.reset.busy = false := by decide

theorem witness_CmdWriteDispatches : (withEngine lastStep).engine? = some lastStep ∧ lastStep.busy = true ∧
    (withEngine (ready 0xffffffffffffffff 2)).engine? = some (ready 0xffffffffffffffff 2) ∧
    (ready 0xffffffffffffffff 2).busy = false ∧ (ready 0xffffffffffffffff 2).len ≠ 0 ∧
    2 ^ State.reset.cfg.addrW < (ready 0xffffffffffffffff 2).src.toNat + (ready 0xffffffffffffffff 2).len.toNat ∧
    (withEngine (ready 1 0xffffffffffffffff)).engine? = some (ready 1 0xffffffffffffffff) ∧
    (ready 1 0xffffffffffffffff).src.toNat + (ready 1 0xffffffffffffffff).len.toNat ≤ 2 ^ State.reset.cfg.addrW ∧
    (0x2 : Word) ≠ 0x0 ∧ (0x2 : Word) ≠ 0x1 := by decide

theorem witness_AccessTouchesOnlyItsInstance :
    ∃ t, exec (.wrSeed 5) { State.reset with cfg := twoBases, engines := [Engine.reset, lastStep] } = .next t ∧
      (1 : Nat) ≠ State.reset.target ∧ t.engines[1]? = some lastStep := ⟨_, rfl, by decide, by decide⟩

theorem witness_AccessFrameOnItsInstance :
    (∃ t f, exec (.wrSeed 5) State.reset = .next t ∧ State.reset.engine? = some Engine.reset ∧ t.engine? = some f ∧
      (∀ v, Instr.wrSeed 5 ≠ .wrSrc v) ∧ (∀ v, Instr.wrSeed 5 ≠ .wrLen v) ∧ (∀ w, Instr.wrSeed 5 ∉ commandsOf w) ∧
      Instr.wrSeed 5 ∉ registerReads) ∧
    (∃ t f, exec .rdSeed State.reset = .next t ∧ t.engine? = some f ∧ Instr.rdSeed ∈ registerReads ∧
      ∀ v, Instr.rdSeed ≠ .wrSeed v) :=
  ⟨⟨_, _, rfl, rfl, rfl, nofun, nofun, by intro w; simp [commandsOf], by simp [registerReads, reservedReads]⟩,
    ⟨_, _, rfl, rfl, by simp [registerReads], nofun⟩⟩

theorem witness_ResultWrittenOnlyAtCompletion :
    (∃ t f, step (engineNext lastStep abcMem) = .next t ∧ (engineNext lastStep abcMem).engines[0]? = some lastStep ∧
      t.engines[0]? = some f ∧ f.result ≠ lastStep.result) ∧
    (∃ t f, step { withEngine { lastStep with result := 7 } with sched := [.reset 0] } = .next t ∧
      t.engines[0]? = some f ∧ f.result ≠ 7) :=
  ⟨⟨_, _, rfl, rfl, rfl, by decide⟩, ⟨_, _, rfl, rfl, by decide⟩⟩

/-- An idle instance whose last operation completed. -/
def completed : Engine := { Engine.reset with done := true }

theorem witness_DoneChangesOnlyByItsRules :
    (∃ t f, step { hostNext (lineDigest base0) with engines := [completed] } = .next t ∧ t.engines[0]? = some f ∧
      completed.done = true ∧ f.done = false) ∧
    (∃ t f, step { withEngine completed with sched := [.reset 0] } = .next t ∧ t.engines[0]? = some f ∧ f.done = false) ∧
    (∃ t f, step (engineNext lastStep abcMem) = .next t ∧ t.engines[0]? = some f ∧ lastStep.done = false ∧
      f.done = true) ∧
    (∃ t f, step (hostNext (lineWr base0 .cmd 0x2)) = .next t ∧ t.engines[0]? = some f ∧ f.done = true) :=
  ⟨⟨_, _, rfl, rfl, rfl, rfl⟩, ⟨_, _, rfl, rfl, rfl⟩, ⟨_, _, rfl, rfl, rfl, rfl⟩, ⟨_, _, rfl, rfl, rfl⟩⟩

theorem witness_BusyChangesOnlyByItsRules :
    (∃ t f, step (engineNext lastStep abcMem) = .next t ∧ t.engines[0]? = some f ∧ lastStep.busy = true ∧
      f.busy = false) ∧
    (∃ t f, step (hostNext (lineDigest base0)) = .next t ∧ t.engines[0]? = some f ∧ Engine.reset.busy = false ∧
      f.busy = true) := ⟨⟨_, _, rfl, rfl, rfl, rfl⟩, ⟨_, _, rfl, rfl, rfl, rfl⟩⟩

theorem witness_MemoryWrittenOnlyByHosts :
    ∃ t, step (hostNext (.memwr 0x1000 [0x61])) = .next t ∧ t.mem ≠ (hostNext (.memwr 0x1000 [0x61])).mem :=
  ⟨_, rfl, by decide⟩

theorem witness_InstancesDoNotInterfere :
    (∃ t, move (.engine 0) (engineNext lastStep abcMem) = .next t) ∧
    (∃ t, move (.reset 0) (engineNext lastStep abcMem) = .next t) ∧
    ∃ t, move (.engine 0) { engineNext lastStep abcMem with engines := [lastStep, completed] } = .next t ∧
      ({ engineNext lastStep abcMem with engines := [lastStep, completed] } : State).engines[0]? =
        (engineNext lastStep abcMem).engines[0]? := ⟨⟨_, rfl⟩, ⟨_, rfl⟩, ⟨_, rfl, rfl⟩⟩

theorem witness_DigestDependsOnlyOnBuffer : ∀ k < (49 : Word).toNat, pat k = (fun k => if k < 49 then pat k else 0xff) k := by
  decide

theorem witness_BulkPhaseRunsAllRounds : 48 ≤ (48 : Word).toNat ∧ 48 ≤ (0xffffffffffffffff : Word).toNat := by decide

theorem witness_FoldRunsAtMostTwice : (longStart 0 47).rem.toNat < 48 ∧ 16 < (longStart 0 47).rem.toNat := by decide

/-- The next step is instance 0's. -/
theorem witness_movesNext (e : Engine) (m : Memory) :
    (engineNext e m).movesNext (.engine 0) [] ∧ (engineNext e m).engines[0]? = some e := ⟨rfl, rfl⟩

theorem witness_InitStepChoosesBand : (running .init 0 16 0).phase = .init ∧ (running .init 0 16 0).lLen.toNat ≤ 16 ∧
    16 < (running .init 0 17 0).lLen.toNat ∧ (running .init 0 47 0).lLen.toNat < 48 ∧
    48 ≤ (running .init 0 48 0).lLen.toNat := by decide

theorem witness_ShortStepSelectsOperands : ∀ n ∈ [0, 1, 3, 4, 7, 8, 15, 16],
    (running .short 0x4000 (BitVec.ofNat 64 n) 0).phase = .short ∧
    (running .short 0x4000 (BitVec.ofNat 64 n) 0).readsOk Config.default = true ∧
    (running .short 0x4000 (BitVec.ofNat 64 n) 0).lLen.toNat = n ∧ n ≤ 16 := by decide

/-- R172: length 0, where every byte the platform could be asked for is unreadable. -/
theorem witness_ShortStepSelectsOperands_empty : (running .short 0xfff8 0 0).phase = .short ∧
    (running .short 0xfff8 0 0).lLen.toNat = 0 ∧ lowOnly.memOk ((running .short 0xfff8 0 0).lSrc.toNat + 8) = false := by decide

theorem witness_BulkStepRunsOneRound : ∀ r ∈ [48, 95, 96],
    ({ running .bulk 0x4000 100 0 with rem := BitVec.ofNat 64 r } : Engine).readsOk Config.default = true ∧
    48 ≤ ({ running .bulk 0x4000 100 0 with rem := BitVec.ofNat 64 r } : Engine).rem.toNat := by decide

theorem witness_FoldStepFoldsSixteenBytes : ∀ r ∈ [17, 32, 33, 47],
    ({ running .fold16 0x4000 47 0 with rem := BitVec.ofNat 64 r } : Engine).readsOk Config.default = true ∧
    16 < ({ running .fold16 0x4000 47 0 with rem := BitVec.ofNat 64 r } : Engine).rem.toNat := by decide

theorem witness_TailStepTakesLastBytes : (running .tail 0x4000 17 0).readsOk Config.default = true ∧
    16 < (running .tail 0x4000 17 0).lLen.toNat := by decide

theorem witness_Fin1StepKeepsProduct : (running .fin1 0x1000 3 2).phase = .fin1 := by decide

theorem witness_Fin2StepCompletes : lastStep.phase = .fin2 ∧ lastStep.raced = false := by decide

theorem witness_BusErrorAborts : 8 ∈ (running .short 0xfff8 16 0).needs ∧
    lowOnly.memOk ((running .short 0xfff8 16 0).lSrc.toNat + 8) = false := by decide

theorem witness_ResetEventClearsInstance :
    ({ withEngine lastStep with sched := [.reset 0] } : State).movesNext (.reset 0) [] ∧
    (withEngine lastStep).engines[0]? = some lastStep := ⟨rfl, rfl⟩

/-- `lastStep` meets its invariant. -/
theorem lastStep_inv : lastStep.Inv Config.default :=
  ⟨by decide, by decide, by decide, by decide, by decide, by decide, trivial⟩

/-- An operation on `n` bytes at 0x1000 that starts. -/
def starting (n : Word) : Engine := running .init 0x1000 n 2

/-- The invariant of an operation that starts. -/
theorem starting_inv (c : Config) (n : Word) (h : rangeOk c 0x1000 n = true) : (starting n).Inv c :=
  ⟨by simp [starting, running], by simp [starting, running, Engine.reset], by simp [starting, running, Engine.reset],
    by simp [starting, running, Engine.reset], .inl rfl, fun _ => h, trivial⟩

theorem witness_ReadsStayInsideBuffer : (running .short 0xfffffffffffffff0 16 0).Inv Config.default ∧
    15 ∈ (running .short 0xfffffffffffffff0 16 0).needs :=
  ⟨⟨by decide, by decide, by decide, by decide, by decide, by decide, by
    show (16 : Word).toNat ≤ 16
    decide⟩, by decide⟩

theorem witness_StatusTakesSixValues : lastStep.Inv Config.default := lastStep_inv

/-- A state with one instance in a good state is good. -/
theorem engineNext_inv {e : Engine} (h : e.Inv Config.default) : (engineNext e abcMem).Inv :=
  ⟨by show Config.default.wf = true; decide, rfl, by simp [engineNext, withEngine, State.reset],
    by show abcMem.wf; decide,
    by show ∀ c ∈ abcMem, c.1 < 2 ^ 64; decide, fun f hf => by
      obtain rfl := List.mem_singleton.1 hf
      exact h⟩

theorem witness_StepKeepsGoodState : (engineNext lastStep abcMem).Inv ∧
    ∃ t, step (engineNext lastStep abcMem) = .next t := ⟨engineNext_inv lastStep_inv, _, rfl⟩

theorem witness_EngineStepsCountDown : lastStep.Inv Config.default ∧ lastStep.phase ≠ .idle ∧
    ∃ f, (engineMove 0 (engineNext lastStep abcMem)).engines[0]? = some f := ⟨lastStep_inv, by decide, _, rfl⟩

/-- `lastStep` is on track (V-TR-3). -/
theorem lastStep_onTrack : (engineNext lastStep abcMem).OnTrack := by
  intro e he
  obtain rfl := List.mem_singleton.1 he
  intro _ _
  show lastStep.due SecretTable.default (lastStep.bytes abcMem) =
    digest SecretTable.default (lastStep.bytes abcMem) lastStep.lLen lastStep.lSeed
  decide

theorem witness_AnyInterleavingStaysOnTrack : (engineNext lastStep abcMem).Inv ∧ (engineNext lastStep abcMem).OnTrack ∧
    ∃ t, step (engineNext lastStep abcMem) = .next t := ⟨engineNext_inv lastStep_inv, lastStep_onTrack, _, rfl⟩

theorem witness_CompletionGivesDigest : (engineNext lastStep abcMem).Inv ∧ (engineNext lastStep abcMem).OnTrack ∧
    lastStep.phase = .fin2 ∧ lastStep.raced = false :=
  ⟨engineNext_inv lastStep_inv, lastStep_onTrack, by decide, by decide⟩

/-- A state whose instance 0 takes the steps of its operation next. -/
def operationNext (c : Config) (n : Word) : State :=
  { engineNext (starting n) abcMem with cfg := c, sched := List.replicate (stepCount n.toNat) (.engine 0) ++ [.host 0] }

/-- That state is good. -/
theorem operationNext_inv (c : Config) (n : Word) (hc : c.wf = true) (hb : c.bases.length = 1) (ha : c.addrW = 64)
    (h : rangeOk c 0x1000 n = true) : (operationNext c n).Inv :=
  ⟨hc, hb.symm, Nat.one_pos, by show abcMem.wf; decide,
    by show ∀ x ∈ abcMem, x.1 < 2 ^ c.addrW; rw [ha]; decide, fun f hf => by
      obtain rfl := List.mem_singleton.1 hf
      exact starting_inv c n h⟩

theorem witness_OperationComputesDigest : (operationNext Config.default 3).Inv ∧
    (operationNext Config.default 3).engines[0]? = some (starting 3) ∧ (starting 3).phase = .init ∧
    (starting 3).raced = false ∧ (starting 3).readable Config.default ∧
    (operationNext Config.default 3).sched = List.replicate (stepCount (starting 3).lLen.toNat) (.engine 0) ++ [.host 0] :=
  ⟨operationNext_inv _ _ (by decide) rfl rfl (by decide), rfl, rfl, rfl, fun _ _ => rfl, rfl⟩

theorem witness_AbortsIffBufferUnreadable : (operationNext lowOnly 0xffff).Inv ∧
    ¬ (starting 0xffff).readable lowOnly ∧ (starting 3).readable lowOnly :=
  ⟨operationNext_inv _ _ (by decide) rfl rfl (by decide),
    fun h => absurd (h 0xf000 (by decide)) (by decide), by
      show ∀ k < 3, lowOnly.memOk (0x1000 + k) = true
      decide⟩

theorem witness_MemwrWritesItsBytes :
    (hostNext (.memwr 0xffffffffffffffff [5])).takesLine 0 (.memwr 0xffffffffffffffff [5]) lineTaken ∧
    State.reset.mem.wf ∧ 0xffffffffffffffff + [5].length ≤ 2 ^ State.reset.cfg.addrW ∧
    ∀ b ∈ State.reset.cfg.bases, Region.overlaps ⟨0xffffffffffffffff, [5].length⟩ ⟨b, 0x100⟩ = false :=
  ⟨witness_takesLine _, by decide, by decide, by decide⟩

theorem witness_MemwrStopsOutsideMemory : 2 ^ State.reset.cfg.addrW < 0xffffffffffffffff + [5, 6].length ∧
    base0 - 1 + [5, 6].length ≤ 2 ^ State.reset.cfg.addrW ∧
    ∃ b ∈ State.reset.cfg.bases, Region.overlaps ⟨base0 - 1, [5, 6].length⟩ ⟨b, 0x100⟩ = true :=
  ⟨by decide, by decide, base0, by decide, by decide⟩

/-- A state in which host agent 0 wrote a byte of the buffer and has not made it visible, and one in which it has. -/
theorem witness_VisibilityDecidesRace :
    (∃ t f, exec .digest { withEngine (ready 0x1000 3) with hosts := [{ HostAgent.reset with unfenced := [⟨0x1002, 1⟩] }] } =
      .next t ∧ t.engine? = some f ∧ f.raced = true) ∧
    (∃ t f, exec .digest { withEngine (ready 0x1000 3) with hosts := [{ HostAgent.reset with unfenced := [⟨0x1003, 1⟩] }] } =
      .next t ∧ t.engine? = some f ∧ f.raced = false) ∧
    (∃ t f, exec .digest { withEngine (ready 0x1000 3) with
      cfg := { Config.default with nonIdempotent := [⟨0x0fff, 2⟩] } } = .next t ∧ t.engine? = some f ∧ f.raced = true) ∧
    (hostNext .fence).takesLine 0 .fence lineTaken :=
  ⟨⟨_, _, rfl, rfl, by decide⟩, ⟨_, _, rfl, rfl, by decide⟩, ⟨_, _, rfl, rfl, by decide⟩, witness_takesLine _⟩

end Sys2Proof.Tests
end

section
/-! PROOFS. A host line that the schedule takes: which window an address lies in, and which instruction a step runs. -/

namespace Sys2Proof.Machine

/-! ### The window map (R21, R60) -/

/-- The search stops at a window that holds the address. -/
theorem findWindow_cons_of_mem {b a : Nat} (bs : List Nat) (k : Nat) (h : b ≤ a ∧ a < b + windowSize) :
    findWindow (b :: bs) k a = some (k, BitVec.ofNat 8 (a - b)) := by
  simp only [findWindow, if_pos h]

/-- The search passes a window that does not hold the address. -/
theorem findWindow_cons_of_not_mem {b a : Nat} (bs : List Nat) (k : Nat) (h : ¬(b ≤ a ∧ a < b + windowSize)) :
    findWindow (b :: bs) k a = findWindow bs (k + 1) a := by
  simp only [findWindow, if_neg h]

/-- Two windows at multiples of their size that share an address are one window. -/
theorem base_eq_of_window_shared {b d a : Nat} (hb : b % 0x100 = 0) (hd : d % 0x100 = 0)
    (hba : b ≤ a ∧ a < b + windowSize) (hda : d ≤ a ∧ a < d + windowSize) : b = d := by
  simp only [windowSize] at hba hda
  omega

/-- `BASE + off` lies in the window at `BASE`. -/
theorem base_add_off_mem_window (b : Nat) (off : BitVec 8) : b ≤ b + off.toNat ∧ b + off.toNat < b + windowSize :=
  ⟨Nat.le_add_right .., Nat.add_lt_add_left off.isLt b⟩

/-- Among bases that are multiples of 0x100 and do not repeat, the search finds the `i`-th window at each of its offsets. -/
theorem findWindow_of_getElem? {bases : List Nat} {b i : Nat} (off : BitVec 8) (k : Nat)
    (ha : ∀ d ∈ bases, d % 0x100 = 0) (hn : bases.Nodup) (hi : bases[i]? = some b) :
    findWindow bases k (b + off.toNat) = some (k + i, off) := by
  induction bases generalizing k i with
  | nil => simp at hi
  | cons d ds ih =>
    have hin := base_add_off_mem_window b off
    cases i with
    | zero =>
      obtain rfl : d = b := by simpa using hi
      simp [findWindow_cons_of_mem ds k hin]
    | succ i =>
      obtain ⟨hd, hn⟩ := List.nodup_cons.1 hn
      have hi : ds[i]? = some b := by simpa using hi
      have hb : b ∈ ds := List.mem_of_getElem? hi
      have hne : d ≠ b := fun h => hd (h ▸ hb)
      have hout : ¬(d ≤ b + off.toNat ∧ b + off.toNat < d + windowSize) := fun h =>
        hne (base_eq_of_window_shared (ha d List.mem_cons_self) (ha b (List.mem_cons_of_mem d hb)) h hin)
      rw [findWindow_cons_of_not_mem ds k hout, ih (k + 1) (fun x hx => ha x (List.mem_cons_of_mem d hx)) hn hi,
        Nat.add_right_comm, Nat.add_assoc]

/-- What admitted parameters say of the bases (R7, R210): each is a multiple of 0x100, and none repeats. -/
theorem bases_of_config_wf {c : Config} (h : c.wf = true) :
    (∀ b ∈ c.bases, b % 0x100 = 0) ∧ c.bases.Nodup := by
  simp only [Config.wf, Bool.and_eq_true, List.all_eq_true, beq_iff_eq, decide_eq_true_eq] at h
  obtain ⟨⟨-, haligned⟩, hnodup⟩ := h
  exact ⟨haligned, hnodup⟩

/-- Settles O9: the windows before the `k`-th are passed because aligned windows that share an address have one base. -/
theorem windowsDoNotOverlap : Obligations.WindowsDoNotOverlap := by
  intro c k b off hc hk
  obtain ⟨haligned, hnodup⟩ := bases_of_config_wf hc
  simpa [Config.windowOf] using findWindow_of_getElem? off 0 haligned hnodup hk

/-! ### The line a step takes (R15, R84) -/

/-- A step whose next move takes a line off a host agent runs that line in the state with the line taken off. -/
theorem State.takesLine.step_eq {s t : State} {j : Nat} {l : HostLine} (h : s.takesLine j l t) :
    step s = hostLine j l t := by
  obtain ⟨_, _, _, hs, hj, hl, rfl⟩ := h
  exact step_hostLine hs hj hl

/-- Taking a line off leaves the parameters. -/
theorem State.takesLine.cfg_eq {s t : State} {j : Nat} {l : HostLine} (h : s.takesLine j l t) : t.cfg = s.cfg := by
  obtain ⟨_, _, _, _, _, _, rfl⟩ := h
  rfl

/-- A 64-bit transfer into the window of instance `k` gives its descriptor and its data to that instance (R60, R75). -/
theorem busAccess_of_windowOf {a : BusAccess} {s : State} {k : Nat} {off : BitVec 8}
    (hw : s.cfg.windowOf a.addr = some (k, off)) (hs : a.size = 8) :
    busAccess a s = issue k (.access (descriptor a.write off) (if a.write then a.data else 0)) s := by
  simp only [busAccess, hw, if_pos hs]

/-- Settles O6: the step runs the line, a transfer into a window issues its access, and issuing is `exec` of what is decoded. -/
theorem stepRunsDecodedInstruction : Obligations.StepRunsDecodedInstruction := by
  constructor
  · intro s t j a bind k off hl hw hs
    rw [← hl.cfg_eq] at hw
    rw [hl.step_eq, hostLine, hostBus, busAccess_of_windowOf hw hs, issue]
  · intro s t j k w hl
    rw [hl.step_eq, hostLine, issue]

end Sys2Proof.Machine
end

section
/-! PROOFS. Every step of every agent keeps a good state good: the invariant of one instance under each effect a step can have on it. -/

namespace Sys2Proof.Machine

/-! ### An instance that is idle -/

/-- Every error code is a known one (R200). -/
theorem ErrorCause.code_known (x : ErrorCause) :
    x.code = ErrorCause.illegalCmd.code ∨ x.code = ErrorCause.busError.code ∨ x.code = ErrorCause.range.code := by
  cases x <;> decide

/-- No error code is 0 (R200). -/
theorem ErrorCause.code_ne_zero (x : ErrorCause) : x.code ≠ 0 := by
  cases x <;> decide

/-- An idle instance without an error is good: the invariants of an operation in progress say nothing of it. -/
theorem Engine.Inv.of_idle_ok {c : Config} {e : Engine} (hb : e.busy = false) (hp : e.phase = .idle)
    (he : e.err = false) (hc : e.errCode = 0) : e.Inv c where
  busy_iff := by simp [hb, hp]
  busy_clear := by simp [hb]
  err_done := by simp [he]
  code_iff := by simp [hc, he]
  code_known := .inl hc
  range_ok := by simp [hb]
  phase_regs := by simp [Engine.phaseInv, hp]

/-- An idle instance whose last command completed with an error is good (R202). -/
theorem Engine.Inv.of_idle_failed {c : Config} {e : Engine} (x : ErrorCause) (hb : e.busy = false) (hp : e.phase = .idle)
    (hd : e.done = true) (he : e.err = true) (hc : e.errCode = x.code) : e.Inv c where
  busy_iff := by simp [hb, hp]
  busy_clear := by simp [hb]
  err_done := fun _ => hd
  code_iff := iff_of_true (hc ▸ x.code_ne_zero) he
  code_known := .inr (hc ▸ x.code_known)
  range_ok := by simp [hb]
  phase_regs := by simp [Engine.phaseInv, hp]

/-! ### An operation in progress -/

/-- A good instance with an operation in progress is busy, with `DONE`, `ERR` and `ERRCODE` clear (R44). -/
theorem Engine.Inv.flags_of_active {c : Config} {e : Engine} (h : e.Inv c) (hp : e.phase ≠ .idle) :
    e.busy = true ∧ e.done = false ∧ e.err = false ∧ e.errCode = 0 := by
  have hb : e.busy = true := h.busy_iff.2 hp
  obtain ⟨hd, he⟩ := h.busy_clear hb
  have hc : ¬e.errCode ≠ 0 := fun hc => by simp [h.code_iff.1 hc] at he
  exact ⟨hb, hd, he, not_not.1 hc⟩

/-- The progress registers of an operation on track through its buffer, as the lanes see them (R38). -/
theorem Engine.split.lanes {e : Engine} (h : e.split) : e.lanes.splits e.lLen.toNat := ⟨h, e.lLen.isLt⟩

/-- What the INIT step sets up (R171). -/
theorem stepInit_phaseInv (S : SecretTable) (e : Engine) :
    (stepInit S e).phase ≠ .idle ∧ (stepInit S e).phaseInv := by
  unfold stepInit
  simp only
  split
  case isTrue hle => exact ⟨nofun, hle⟩
  case isFalse hgt =>
    split
    case isTrue h48 => exact ⟨nofun, h48, Nat.zero_add _⟩
    case isFalse hlt =>
      have hgt := Nat.lt_of_not_le hgt
      exact ⟨nofun, hgt, hgt, Nat.lt_of_not_le hlt, Nat.zero_add _⟩

/-- A BULK step consumes 48 bytes and goes to the phase its remaining length names (R173). -/
theorem stepBulk_phaseInv (S : SecretTable) (B : Nat → Byte) {e : Engine} (hp : e.phase = .bulk) (h : e.phaseInv) :
    (stepBulk S B e).phase ≠ .idle ∧ (stepBulk S B e).phaseInv := by
  simp only [Engine.phaseInv, hp] at h
  obtain ⟨h48, hsplit⟩ := h
  obtain ⟨⟨hsum, -⟩, hrem, -⟩ := bulkRound_splits (S := S) (B := B) hsplit.lanes h48
  replace hrem : (bulkRound S B e.lanes).rem.toNat = e.rem.toNat - 48 := hrem
  have hlen : e.off.toNat + e.rem.toNat = e.lLen.toNat := hsplit
  unfold stepBulk
  simp only
  split
  case isTrue hlt =>
    by_cases h16 : 16 < (bulkRound S B e.lanes).rem.toNat
    · simp only [h16, if_true]
      exact ⟨nofun, show 16 < e.lLen.toNat by omega, h16, hlt, hsum⟩
    · simp only [h16, if_false]
      exact ⟨nofun, show 16 < e.lLen.toNat by omega, show _ ≤ 16 from Nat.le_of_not_lt h16, hsum⟩
  case isFalse hge =>
    simp only [Engine.phaseInv, Engine.setLanes_phase, hp]
    exact ⟨nofun, Nat.le_of_not_lt hge, hsum⟩

/-- A FOLD16 step consumes 16 bytes and goes to the phase its remaining length names (R174). -/
theorem stepFold16_phaseInv (S : SecretTable) (B : Nat → Byte) {e : Engine} (hp : e.phase = .fold16) (h : e.phaseInv) :
    (stepFold16 S B e).phase ≠ .idle ∧ (stepFold16 S B e).phaseInv := by
  simp only [Engine.phaseInv, hp] at h
  obtain ⟨hlen, hrem, hlt, hsplit⟩ := h
  obtain ⟨⟨hsum, -⟩, hrem', -⟩ := foldRound_splits (S := S) (B := B) hsplit.lanes hrem
  replace hrem' : (foldRound S B e.lanes).rem.toNat = e.rem.toNat - 16 := hrem'
  unfold stepFold16
  by_cases h16 : 16 < (foldRound S B e.lanes).rem.toNat
  · simp only [h16, if_true]
    exact ⟨nofun, hlen, h16, show (foldRound S B e.lanes).rem.toNat < 48 by omega, hsum⟩
  · simp only [h16, if_false]
    exact ⟨nofun, hlen, show _ ≤ 16 from Nat.le_of_not_lt h16, hsum⟩

/-- An action other than FIN2 keeps an operation in progress in a phase whose facts hold (R171 to R176). -/
theorem act_phaseInv (S : SecretTable) (B : Nat → Byte) (v : Word) {e : Engine} (h : e.phaseInv)
    (hidle : e.phase ≠ .idle) (hfin2 : e.phase ≠ .fin2) :
    (e.act S B v).phase ≠ .idle ∧ (e.act S B v).phaseInv := by
  cases hp : e.phase with
  | idle => exact absurd hp hidle
  | init => simpa only [Engine.act, hp] using stepInit_phaseInv S e
  | short => simp [Engine.act, hp, stepShort, Engine.phaseInv]
  | bulk => simpa only [Engine.act, hp] using stepBulk_phaseInv S B hp h
  | fold16 => simpa only [Engine.act, hp] using stepFold16_phaseInv S B hp h
  | tail => simp [Engine.act, hp, stepTail, Engine.phaseInv]
  | fin1 => simp [Engine.act, hp, stepFin1, Engine.phaseInv]
  | fin2 => exact absurd hp hfin2

/-- The action of a good instance with an operation in progress gives a good instance. -/
theorem Engine.Inv.act {c : Config} {e : Engine} (h : e.Inv c) (hp : e.phase ≠ .idle) (S : SecretTable) (B : Nat → Byte)
    (v : Word) : (e.act S B v).Inv c := by
  by_cases hfin2 : e.phase = .fin2
  · simp only [Engine.act, hfin2]
    exact .of_idle_ok rfl rfl rfl rfl
  · obtain ⟨hb, hd, he, hc⟩ := h.flags_of_active hp
    obtain ⟨hp', hregs⟩ := act_phaseInv S B v h.phase_regs hp hfin2
    obtain ⟨fb, fd, fe, fc, -, -, -, -, -, fsrc, flen, -⟩ := act_keeps S B v e hfin2
    exact
      { busy_iff := by simp [fb, hb, hp']
        busy_clear := by simp [fd, hd, fe, he]
        err_done := by simp [fe, he]
        code_iff := by simp [fc, hc, fe, he]
        code_known := .inl (fc.trans hc)
        range_ok := fun _ => by rw [fsrc, flen]; exact h.range_ok hb
        phase_regs := hregs }

/-! ### What each move does to a good instance -/

/-- An engine step of a good instance gives a good instance (R170). -/
theorem Engine.Inv.advance {c : Config} {e : Engine} (h : e.Inv c) (hp : e.phase ≠ .idle) (m : Memory) (n : Nat) :
    (e.advance c m n).Inv c := by
  obtain ⟨-, hact⟩ | ⟨-, habort⟩ := advance_cases c m n e
  · rw [hact]
    exact h.act hp _ _ _
  · rw [habort]
    exact .of_idle_failed .busError rfl rfl rfl rfl rfl

/-- An instance after its reset is good (R220). -/
theorem Engine.afterReset_inv (c : Config) (n : Nat) : (Engine.afterReset n).Inv c := .of_idle_ok rfl rfl rfl rfl

/-- An operation that starts within the address space is good (R163). -/
theorem Engine.start_inv {c : Config} {e : Engine} (hr : rangeOk c e.src e.len = true) (r : Bool) : (e.start r).Inv c where
  busy_iff := by simp
  busy_clear := by simp
  err_done := by simp
  code_iff := by simp
  code_known := .inl rfl
  range_ok := fun _ => hr
  phase_regs := trivial

/-- The invariant of an instance does not read `SEED`, `SRC`, `LEN` nor `raced`. -/
theorem Engine.Inv.congr_operands {c : Config} {e : Engine} (h : e.Inv c) (seed src len : Word) (raced : Bool) :
    ({ e with seed := seed, src := src, len := len, raced := raced } : Engine).Inv c :=
  ⟨h.busy_iff, h.busy_clear, h.err_done, h.code_iff, h.code_known, h.range_ok, h.phase_regs⟩

/-- A register access of a good instance gives a good instance (R150). -/
theorem AccessEffect.inv {c : Config} {e f : Engine} (h : e.Inv c) (hf : AccessEffect c e f) : f.Inv c := by
  cases hf with
  | none => exact h
  | seed v => exact h.congr_operands v e.src e.len e.raced
  | src v => exact h.congr_operands e.seed v e.len e.raced
  | len v => exact h.congr_operands e.seed e.src v e.raced
  | started _ hr r => exact Engine.start_inv hr r
  | failed _ x _ => exact .of_idle_failed x rfl rfl rfl rfl rfl

/-- Whatever a step does to a good instance, it stays good. -/
theorem EngineEffect.inv {s : State} {k : Nat} {e f : Engine} (h : e.Inv s.cfg) (hf : EngineEffect s k e f) :
    f.Inv s.cfg := by
  cases hf with
  | same => exact h
  | noted b => exact h.congr_operands e.seed e.src e.len b
  | advanced n _ hp => exact h.advance hp s.mem n
  | reset n _ => exact Engine.afterReset_inv s.cfg n
  | accessed _ hx => exact hx.inv h

/-- A step keeps memory canonical and inside the address space (R50). -/
theorem StepEffect.mem_inv {s t : State} (h : StepEffect s t) (hw : s.mem.wf)
    (hs : ∀ c ∈ s.mem, c.1 < 2 ^ s.cfg.addrW) : t.mem.wf ∧ ∀ c ∈ t.mem, c.1 < 2 ^ s.cfg.addrW := by
  cases h with
  | quiet hm | engine _ _ _ _ _ _ hm | reset _ _ _ hm | access _ _ _ _ _ _ _ hm =>
    rw [hm]
    exact ⟨hw, hs⟩
  | memwr _ addr bytes _ _ _ _ _ hfits hm =>
    rw [hm]
    exact ⟨Memory.writeBytes_wf hw addr bytes, Memory.writeBytes_space hs hfits⟩

/-- An instance after a step is what the step made of the instance of the same number. -/
theorem exists_engineEffect_of_mem {s t : State} {f : Engine} (h : step s = .next t) (hf : f ∈ t.engines) :
    ∃ (k : Nat) (e : Engine), e ∈ s.engines ∧ EngineEffect s k e f := by
  obtain ⟨k, hk⟩ := List.mem_iff_getElem?.1 hf
  obtain ⟨hlt, -⟩ := List.getElem?_eq_some_iff.1 hk
  rw [step_instances h] at hlt
  exact ⟨k, s.engines[k], List.getElem_mem hlt, step_engineEffect h (List.getElem?_eq_getElem hlt) hk⟩

/-- Settles O51: the parameters and the instances stay, memory keeps its form, and each effect of a step keeps each instance good. -/
theorem stepKeepsGoodState : Obligations.StepKeepsGoodState := by
  intro s t hs h
  obtain ⟨hcfg, htarget, heffect⟩ := step_cases h
  have hlen := step_instances h
  obtain ⟨hwf, hspace⟩ := heffect.mem_inv hs.mem_wf hs.mem_space
  refine ⟨?_, hcfg⟩
  exact
    { cfg_wf := hcfg ▸ hs.cfg_wf
      instances := by rw [hlen, hcfg]; exact hs.instances
      target_ok := hlen ▸ htarget hs.target_ok
      mem_wf := hwf
      mem_space := hcfg ▸ hspace
      engine_inv := fun f hf => by
        obtain ⟨k, e, he, heff⟩ := exists_engineEffect_of_mem h hf
        rw [hcfg]
        exact heff.inv (hs.engine_inv e he) }

/-- Settles O50: the parameters of R7 are admitted, memory lists nothing, and the one instance is idle without an error. -/
theorem resetStateIsGood : Obligations.ResetStateIsGood where
  cfg_wf := by decide
  instances := rfl
  target_ok := Nat.one_pos
  mem_wf := by decide
  mem_space := nofun
  engine_inv := fun e he => by
    obtain rfl := List.mem_singleton.1 he
    exact .of_idle_ok rfl rfl rfl rfl

/-- Settles O49: `STATUS` by the flags a good instance can have: busy, idle without an error, or idle with one of three codes. -/
theorem statusTakesSixValues : Obligations.StatusTakesSixValues := by
  intro c e h
  cases hb : e.busy with
  | true =>
    obtain ⟨-, hd, he, hc⟩ := h.flags_of_active (h.busy_iff.1 hb)
    simp [Engine.statusWord, hb, hd, he, hc, flagWord]
  | false =>
    cases he : e.err with
    | false =>
      have hc : e.errCode = 0 := not_not.1 fun hc => by simp [h.code_iff.1 hc] at he
      cases hd : e.done <;> simp [Engine.statusWord, hb, hd, he, hc, flagWord]
    | true =>
      have hd := h.err_done he
      have hne := h.code_iff.2 he
      obtain hc | hc | hc | hc := h.code_known
      · exact absurd hc hne
      all_goals simp [Engine.statusWord, hb, hd, he, hc, flagWord, ErrorCause.code]

end Sys2Proof.Machine
end

section
/-! PROOFS. No step takes an operation off the track to its digest: what is due depends on the bytes of the buffer alone, an engine step
keeps it, and every other move leaves it or marks the operation raced. -/

namespace Sys2Proof.Machine

/-! ### What is due depends on the bytes of the buffer alone -/

/-- Bulk rounds keep the split of the buffer (R38). -/
theorem bulkLoop_splits {S : SecretTable} {B : Nat → Byte} {n f : Nat} {l : Lanes} (h : l.splits n) :
    (bulkLoop S B f l).splits n := by
  induction f generalizing l with
  | zero => exact h
  | succ f ih =>
    simp only [bulkLoop]
    split
    case isTrue hr => exact ih (bulkRound_splits h hr).1
    case isFalse => exact h

/-- The bulk phase keeps the split of the buffer (R38). -/
theorem bulkPhase_splits {S : SecretTable} {B : Nat → Byte} {n : Nat} {l : Lanes} (h : l.splits n) :
    (bulkPhase S B l).splits n := bulkLoop_splits (f := l.rem.toNat) h

/-- Bulk rounds depend only on the bytes of the buffer. -/
theorem bulkLoop_congr {S : SecretTable} {B C : Nat → Byte} {n f : Nat} {l : Lanes} (hBC : ∀ j < n, B j = C j)
    (h : l.splits n) : bulkLoop S B f l = bulkLoop S C f l := by
  induction f generalizing l with
  | zero => rfl
  | succ f ih =>
    simp only [bulkLoop]
    split
    case isTrue hr =>
      have hread : l.off.toNat + 48 ≤ n := by have := h.1; omega
      rw [ih (bulkRound_splits h hr).1, bulkRound_congr hBC hread]
    case isFalse => rfl

/-- Folds depend only on the bytes of the buffer. -/
theorem foldLoop_congr {S : SecretTable} {B C : Nat → Byte} {n f : Nat} {l : Lanes} (hBC : ∀ j < n, B j = C j)
    (h : l.splits n) : foldLoop S B f l = foldLoop S C f l := by
  induction f generalizing l with
  | zero => rfl
  | succ f ih =>
    simp only [foldLoop]
    split
    case isTrue hr =>
      have hread : l.off.toNat + 16 ≤ n := by have := h.1; omega
      rw [ih (foldRound_splits h hr).1, foldRound_congr hBC hread]
    case isFalse => rfl

/-- The bulk phase depends only on the bytes of the buffer. -/
theorem bulkPhase_congr {S : SecretTable} {B C : Nat → Byte} {n : Nat} {l : Lanes} (hBC : ∀ j < n, B j = C j)
    (h : l.splits n) : bulkPhase S B l = bulkPhase S C l := by
  rw [bulkPhase, bulkPhase, bulkLoop_congr hBC h]

/-- The fold phase depends only on the bytes of the buffer. -/
theorem foldPhase_congr {S : SecretTable} {B C : Nat → Byte} {n : Nat} {l : Lanes} (hBC : ∀ j < n, B j = C j)
    (h : l.splits n) : foldPhase S B l = foldPhase S C l := foldLoop_congr hBC h

/-- The long path starts with the whole buffer left. -/
theorem longStart_splits (acc n : Word) : (longStart acc n).splits n.toNat := ⟨Nat.zero_add _, n.isLt⟩

/-- The long path depends only on the bytes of the buffer. -/
theorem longPath_congr {S : SecretTable} {B C : Nat → Byte} {n : Word} (hBC : ∀ j < n.toNat, B j = C j) (acc : Word) :
    longPath S B acc n = longPath S C acc n := by
  have hstart := longStart_splits acc n
  unfold longPath
  split
  case isTrue => rw [bulkPhase_congr hBC hstart, foldPhase_congr hBC (bulkPhase_splits hstart)]
  case isFalse => rw [foldPhase_congr hBC hstart]

/-- The operands of the short bands depend only on the bytes of the buffer (R128 to R130). -/
theorem shortOperands_congr {B C : Nat → Byte} {n : Nat} (hBC : ∀ j < n, B j = C j) :
    shortOperands B n = shortOperands C n := by
  unfold shortOperands
  split
  case isTrue => rfl
  case isFalse hn =>
    split
    case isTrue h3 =>
      have hhalf : n >>> 1 < n := by rw [Nat.shiftRight_one]; omega
      rw [r3, r3, hBC 0 (by omega), hBC (n >>> 1) hhalf, hBC (n - 1) (by omega)]
    case isFalse h3 =>
      rw [r4Pair, r4Pair, pairOffset_eq, r4_congr hBC (k := 0) (by omega), r4_congr hBC (k := n / 8 * 4) (by omega),
        r4_congr hBC (k := n - 4) (by omega), r4_congr hBC (k := n - 4 - n / 8 * 4) (by omega)]

/-- The operands of the long path depend only on the bytes of the buffer (R132). -/
theorem tailOperands_congr {B C : Nat → Byte} {n : Nat} (hBC : ∀ j < n, B j = C j) (hn : 16 ≤ n) :
    tailOperands B n = tailOperands C n := by
  rw [tailOperands, tailOperands, r8_congr hBC (k := n - 16) (by omega), r8_congr hBC (k := n - 8) (by omega)]

/-- The digest depends only on the bytes of the buffer (R120). -/
theorem digest_congr {S : SecretTable} {B C : Nat → Byte} {n : Word} (hBC : ∀ j < n.toNat, B j = C j) (seed : Word) :
    digest S B n seed = digest S C n seed := by
  simp only [digest]
  split
  case isTrue => rw [shortOperands_congr hBC]
  case isFalse hn => rw [longPath_congr hBC, tailOperands_congr hBC (by omega)]

/-- What an operation is due to give depends only on the bytes of its buffer. -/
theorem Engine.due_congr {S : SecretTable} {B C : Nat → Byte} {e : Engine} (h : e.phaseInv)
    (hBC : ∀ j < e.lLen.toNat, B j = C j) : e.due S B = e.due S C := by
  unfold Engine.phaseInv at h
  unfold Engine.due
  cases hp : e.phase <;> simp only [hp] at h ⊢
  case init => exact digest_congr hBC e.lSeed
  case short => rw [shortOperands_congr hBC]
  case bulk =>
    obtain ⟨hrem, hsplit⟩ := h
    have hlen : e.off.toNat + e.rem.toNat = e.lLen.toNat := hsplit
    rw [bulkPhase_congr hBC hsplit.lanes, foldPhase_congr hBC (bulkPhase_splits hsplit.lanes),
      tailOperands_congr hBC (by omega)]
  case fold16 =>
    obtain ⟨hlen, -, -, hsplit⟩ := h
    rw [foldPhase_congr hBC hsplit.lanes, tailOperands_congr hBC (by omega)]
  case tail =>
    obtain ⟨hlen, -, -⟩ := h
    rw [tailOperands_congr hBC (by omega)]

/-! ### The loops do not depend on their bound, once it is large enough -/

/-- A bulk round takes 48 off the remaining length, where it can. -/
theorem bulkRound_rem {S : SecretTable} {B : Nat → Byte} {l : Lanes} (h : 48 ≤ l.rem.toNat) :
    (bulkRound S B l).rem.toNat = l.rem.toNat - 48 := BitVec.toNat_sub_of_le h

/-- A fold takes 16 off the remaining length, where it can. -/
theorem foldRound_rem {S : SecretTable} {B : Nat → Byte} {l : Lanes} (h : 16 < l.rem.toNat) :
    (foldRound S B l).rem.toNat = l.rem.toNat - 16 := BitVec.toNat_sub_of_le (Nat.le_of_lt h)

/-- From 48 bytes on, the bulk loop runs one round and goes on (R124). -/
theorem bulkLoop_succ_of_le {S : SecretTable} {B : Nat → Byte} {l : Lanes} (h : 48 ≤ l.rem.toNat) (f : Nat) :
    bulkLoop S B (f + 1) l = bulkLoop S B f (bulkRound S B l) := if_pos h

/-- Below 48 bytes the bulk loop is over (R124). -/
theorem bulkLoop_of_lt {S : SecretTable} {B : Nat → Byte} {l : Lanes} (h : l.rem.toNat < 48) (f : Nat) :
    bulkLoop S B f l = l := by
  cases f with
  | zero => rfl
  | succ f => exact if_neg (Nat.not_le_of_lt h)

/-- From 17 bytes on, the fold loop folds once and goes on (R127). -/
theorem foldLoop_succ_of_lt {S : SecretTable} {B : Nat → Byte} {l : Lanes} (h : 16 < l.rem.toNat) (f : Nat) :
    foldLoop S B (f + 1) l = foldLoop S B f (foldRound S B l) := if_pos h

/-- Up to 16 bytes the fold loop is over (R127). -/
theorem foldLoop_of_le {S : SecretTable} {B : Nat → Byte} {l : Lanes} (h : l.rem.toNat ≤ 16) (f : Nat) :
    foldLoop S B f l = l := by
  cases f with
  | zero => rfl
  | succ f => exact if_neg (Nat.not_lt_of_le h)

/-- One more bulk round at most changes nothing where the bound covers the remaining length. -/
theorem bulkLoop_succ_eq {S : SecretTable} {B : Nat → Byte} {f : Nat} {l : Lanes} (h : l.rem.toNat ≤ 48 * f + 47) :
    bulkLoop S B (f + 1) l = bulkLoop S B f l := by
  induction f generalizing l with
  | zero => rw [bulkLoop_of_lt (by omega), bulkLoop_of_lt (by omega)]
  | succ f ih =>
    by_cases hr : 48 ≤ l.rem.toNat
    · have hrem := bulkRound_rem (S := S) (B := B) hr
      rw [bulkLoop_succ_of_le hr, bulkLoop_succ_of_le hr, ih (by omega)]
    · rw [bulkLoop_of_lt (by omega), bulkLoop_of_lt (by omega)]

/-- Every bound that covers the remaining length gives the same bulk rounds. -/
theorem bulkLoop_add_eq {S : SecretTable} {B : Nat → Byte} {f : Nat} (d : Nat) {l : Lanes} (h : l.rem.toNat ≤ 48 * f + 47) :
    bulkLoop S B (f + d) l = bulkLoop S B f l := by
  induction d with
  | zero => rfl
  | succ d ih => rw [← ih, ← Nat.add_assoc, bulkLoop_succ_eq (by omega)]

/-- With less than 48 bytes left, the bulk phase is the merge alone (R126). -/
theorem bulkPhase_of_rem_lt {S : SecretTable} {B : Nat → Byte} {l : Lanes} (h : l.rem.toNat < 48) :
    bulkPhase S B l = mergeLanes l := congrArg mergeLanes (bulkLoop_of_lt h _)

/-- The bulk phase from 48 bytes on is one round and then the bulk phase (R124). -/
theorem bulkPhase_round {S : SecretTable} {B : Nat → Byte} {l : Lanes} (h : 48 ≤ l.rem.toNat) :
    bulkPhase S B l = bulkPhase S B (bulkRound S B l) := by
  obtain ⟨d, hd⟩ := Nat.exists_eq_add_of_le' h
  have hrem : (bulkRound S B l).rem.toNat = d := by rw [bulkRound_rem h]; omega
  rw [bulkPhase, bulkPhase, hrem, hd, bulkLoop_succ_of_le h, bulkLoop_add_eq 47 (by omega)]

/-- The fold phase is over when at most 16 bytes are left (R127). -/
theorem foldPhase_of_rem_le {S : SecretTable} {B : Nat → Byte} {l : Lanes} (h : l.rem.toNat ≤ 16) :
    foldPhase S B l = l := foldLoop_of_le h 2

/-- The fold phase from 17 to 47 bytes is one fold and then the fold phase: one fold more leaves at most 16 bytes (R127). -/
theorem foldPhase_round {S : SecretTable} {B : Nat → Byte} {l : Lanes} (h16 : 16 < l.rem.toNat) (h48 : l.rem.toNat < 48) :
    foldPhase S B l = foldPhase S B (foldRound S B l) := by
  have hrem := foldRound_rem (S := S) (B := B) h16
  rw [foldPhase, foldPhase, foldLoop_succ_of_lt h16]
  by_cases hagain : 16 < (foldRound S B l).rem.toNat
  · have hrem' := foldRound_rem (S := S) (B := B) hagain
    rw [foldLoop_succ_of_lt hagain, foldLoop_succ_of_lt hagain, foldLoop_of_le (by omega), foldLoop_of_le (by omega)]
  · rw [foldLoop_of_le (by omega), foldLoop_of_le (by omega)]

/-! ### An engine step keeps what is due -/

/-- The INIT step takes up the digest at the band of the length (R171, R121). -/
theorem stepInit_due (S : SecretTable) (B : Nat → Byte) (e : Engine) :
    (stepInit S e).due S B = digest S B e.lLen e.lSeed := by
  unfold stepInit
  simp only [digest]
  split
  case isTrue => rfl
  case isFalse =>
    unfold longPath
    split
    case isTrue => rfl
    case isFalse =>
      simp only [Engine.due, Engine.lanes, foldPhase]
      congr 1
      exact foldLoop_acc0 rfl rfl rfl

/-- With the lanes set below 48 bytes, what is due is the rest of the long path, whether folds are left or not (R173, R174). -/
theorem due_after_lanes (S : SecretTable) (B : Nat → Byte) (e : Engine) (l : Lanes) :
    ({ e.setLanes l with phase := if 16 < l.rem.toNat then .fold16 else .tail } : Engine).due S B =
      finish S e.lLen (foldPhase S B l).acc0 (tailOperands B e.lLen.toNat) := by
  split
  case isTrue => rfl
  case isFalse h => rw [foldPhase_of_rem_le (Nat.le_of_not_lt h)]; rfl

/-- A BULK step keeps what is due (R173). -/
theorem stepBulk_due (S : SecretTable) (B : Nat → Byte) {e : Engine} (hp : e.phase = .bulk) (hr : 48 ≤ e.rem.toNat) :
    (stepBulk S B e).due S B = e.due S B := by
  have hround : bulkPhase S B e.lanes = bulkPhase S B (bulkRound S B e.lanes) := bulkPhase_round hr
  unfold stepBulk
  simp only
  split
  case isTrue hlt =>
    rw [bulkPhase_of_rem_lt hlt] at hround
    simp only [Engine.due, hp, hround]
    exact due_after_lanes S B e (mergeLanes (bulkRound S B e.lanes))
  case isFalse =>
    simp only [Engine.due, Engine.setLanes_phase, hp, hround]
    rfl

/-- A FOLD16 step keeps what is due (R174). -/
theorem stepFold16_due (S : SecretTable) (B : Nat → Byte) {e : Engine} (hp : e.phase = .fold16) (h16 : 16 < e.rem.toNat)
    (h48 : e.rem.toNat < 48) : (stepFold16 S B e).due S B = e.due S B := by
  have hround : foldPhase S B e.lanes = foldPhase S B (foldRound S B e.lanes) := foldPhase_round h16 h48
  simp only [Engine.due, hp, hround]
  exact due_after_lanes S B e (foldRound S B e.lanes)

/-- An action other than FIN2 keeps what is due. -/
theorem act_due (S : SecretTable) (B : Nat → Byte) (v : Word) {e : Engine} (h : e.phaseInv) (hfin2 : e.phase ≠ .fin2) :
    (e.act S B v).due S B = e.due S B := by
  unfold Engine.phaseInv at h
  unfold Engine.act
  cases hp : e.phase <;> simp only [hp] at h ⊢
  case init => rw [stepInit_due, Engine.due, hp]
  case short => simp only [Engine.due, hp, stepShort]
  case bulk => exact stepBulk_due S B hp h.1
  case fold16 =>
    obtain ⟨-, h16, h48, -⟩ := h
    exact stepFold16_due S B hp h16 h48
  case tail => simp only [Engine.due, hp, stepTail]
  case fin1 => simp only [Engine.due, hp, stepFin1, finish]
  case fin2 => exact absurd hp hfin2

/-! ### Every effect of a step keeps an operation on track -/

/-- An instance with no operation in progress is on track. -/
theorem Engine.OnTrack.of_idle {S : SecretTable} {m : Memory} {e : Engine} (h : e.phase = .idle) : e.OnTrack S m :=
  fun hp => absurd h hp

/-- The action keeps a good operation on track. -/
theorem Engine.OnTrack.act {S : SecretTable} {m : Memory} {e : Engine} (h : e.OnTrack S m) (hregs : e.phaseInv)
    (hp : e.phase ≠ .idle) (v : Word) : (e.act S (e.bytes m) v).OnTrack S m := by
  by_cases hfin2 : e.phase = .fin2
  · simp only [Engine.act, hfin2]
    exact .of_idle rfl
  · obtain ⟨hsrc, hlen, hseed, hraced⟩ := act_latched S (e.bytes m) v e
    intro _ hr
    rw [bytes_congr hsrc, act_due S (e.bytes m) v hregs hfin2, hlen, hseed]
    exact h hp (hraced ▸ hr)

/-- An engine step keeps a good operation on track: it acts, or it aborts and ends the operation. -/
theorem Engine.OnTrack.advance {c : Config} {m : Memory} {e : Engine} (h : e.OnTrack c.secret m) (hregs : e.phaseInv)
    (hp : e.phase ≠ .idle) (n : Nat) : (e.advance c m n).OnTrack c.secret m := by
  obtain ⟨-, hact⟩ | ⟨-, habort⟩ := advance_cases c m n e
  · rw [hact]
    exact h.act hregs hp _
  · rw [habort]
    exact .of_idle rfl

/-- A register access keeps every operation on track: an operation that starts is due the digest of its buffer (R163). -/
theorem AccessEffect.onTrack {c : Config} {S : SecretTable} {m : Memory} {e f : Engine} (h : e.OnTrack S m)
    (hf : AccessEffect c e f) : f.OnTrack S m := by
  cases hf with
  | none | seed | src | len => exact h
  | started => exact fun _ _ => rfl
  | failed => exact .of_idle rfl

/-- A region that shares no address with a buffer holds none of its addresses. -/
theorem Region.outside_of_not_overlaps {r b : Region} {k : Nat} (h : r.overlaps b = false) (hk : k < b.size) :
    ¬(r.base ≤ b.base + k ∧ b.base + k < r.base + r.size) := by
  simp only [Region.overlaps, decide_eq_false_iff_not] at h
  omega

/-- A write of a host agent keeps a good operation on track: it writes no byte of its buffer, or makes it raced (R66). -/
theorem Engine.OnTrack.noteWrite {c : Config} {S : SecretTable} {m : Memory} {e : Engine} (h : e.OnTrack S m)
    (hinv : e.Inv c) (hm : m.wf) (addr : Nat) (bytes : List Byte) :
    (e.noteWrite { base := addr, size := bytes.length }).OnTrack S (m.writeBytes addr bytes) := by
  unfold Engine.noteWrite
  split
  case isTrue => exact fun _ hr => nomatch hr
  case isFalse hmiss =>
    intro hp hr
    have hbuf : Region.overlaps { base := addr, size := bytes.length } e.buffer = false := by
      simpa [hinv.busy_iff.2 hp] using hmiss
    have hbytes : ∀ k < e.lLen.toNat, e.bytes (m.writeBytes addr bytes) k = e.bytes m k := fun k hk =>
      (Memory.read_writeBytes hm addr bytes _).trans (if_neg (Region.outside_of_not_overlaps hbuf hk))
    rw [Engine.due_congr hinv.phase_regs hbytes, digest_congr hbytes]
    exact h hp hr

/-- An instance after its reset is on track: it is idle (R220). -/
theorem Engine.afterReset_onTrack (S : SecretTable) (m : Memory) (n : Nat) : (Engine.afterReset n).OnTrack S m :=
  .of_idle rfl

/-- After one instance is replaced, what holds of the new one and held of all holds of all. -/
theorem forall_mem_set {p : Engine → Prop} {es : List Engine} {k : Nat} {f : Engine} (h : ∀ e ∈ es, p e) (hf : p f) :
    ∀ e ∈ es.set k f, p e := fun e he =>
  (List.mem_or_eq_of_mem_set he).elim (h e) (· ▸ hf)

/-- Settles O53: each effect of a step keeps each operation on track, over the memory the step leaves. -/
theorem anyInterleavingStaysOnTrack : Obligations.AnyInterleavingStaysOnTrack := by
  intro s t hs h hstep
  obtain ⟨hcfg, -, heffect⟩ := step_cases hstep
  unfold State.OnTrack at h ⊢
  rw [hcfg]
  cases heffect with
  | quiet hm he =>
    rw [hm, he]
    exact h
  | engine k n e _ hk hp hm he =>
    have hmem := List.mem_of_getElem? hk
    rw [hm, he]
    exact forall_mem_set h ((h e hmem).advance (hs.engine_inv e hmem).phase_regs hp n)
  | reset k n _ hm he =>
    rw [hm, he]
    exact forall_mem_set h (Engine.afterReset_onTrack s.cfg.secret s.mem n)
  | access _ k e f _ hk hf hm he =>
    rw [hm, he]
    exact forall_mem_set h (hf.onTrack (h e (List.mem_of_getElem? hk)))
  | memwr _ addr bytes _ _ _ _ _ _ hm he =>
    rw [hm, he]
    intro f hf
    obtain ⟨e, hmem, rfl⟩ := List.mem_map.1 hf
    exact (h e hmem).noteWrite (hs.engine_inv e hmem) hs.mem_wf addr bytes

end Sys2Proof.Machine
end

section
/-! PROOFS. What an instruction leaves unchanged: memory, the parameters and every other instance, and which registers of its own instance
each class of instruction keeps. -/

namespace Sys2Proof.Machine

/-- Settles O23: an instruction that completes returned a value, or replaced the one instance it addresses. -/
theorem accessTouchesOnlyItsInstance : Obligations.AccessTouchesOnlyItsInstance := by
  intro i s t h
  obtain ⟨_, f, -, -, ⟨v, rfl, -⟩ | rfl⟩ := exec_result h
  · exact ⟨rfl, rfl, fun _ => rfl, rfl, rfl, rfl, rfl, rfl, fun _ _ => rfl⟩
  · exact ⟨rfl, rfl, fun _ => rfl, rfl, rfl, rfl, rfl, List.length_set, fun _ hk => State.setEngine_get_ne s f hk⟩

/-! ### The effect of an instruction, by its class -/

/-- What a command can do to the instance it is given to (R161): nothing, start an operation, or report an error. -/
inductive CommandEffect (e : Engine) : Engine → Prop where
  | none : CommandEffect e e
  | started (r : Bool) : CommandEffect e (e.start r)
  | failed (x : ErrorCause) : CommandEffect e (e.raiseError x)

/-- The state an instruction that completes leaves, by the class of the instruction: a register read, a write of an operand register, a
command, or a write that is ignored (R150 to R166). -/
inductive ExecEffect (i : Instr) (s : State) (e : Engine) : State → Prop where
  | read (hi : i ∈ registerReads) (v : Word) : ExecEffect i s e (s.withData v)
  | seed (v : Word) (hi : i = .wrSeed v) : ExecEffect i s e (s.setEngine s.target { e with seed := v })
  | src (v : Word) (hi : i = .wrSrc v) : ExecEffect i s e (s.setEngine s.target { e with src := v })
  | len (v : Word) (hi : i = .wrLen v) : ExecEffect i s e (s.setEngine s.target { e with len := v })
  | command (w : Word) (hi : i ∈ commandsOf w) (f : Engine) (hf : CommandEffect e f) :
      ExecEffect i s e (s.setEngine s.target f)
  | ignored : ExecEffect i s e s

/-- A register read returns a value, and no more. -/
theorem ExecEffect.of_readReg {i : Instr} {s t : State} {e : Engine} {g : Engine → Word} (hi : i ∈ registerReads)
    (he : s.engine? = some e) (h : readReg g s = .next t) : ExecEffect i s e t := by
  rw [readReg_some he] at h
  cases h
  exact .read hi _

/-- A write that is ignored changes nothing (R166). -/
theorem ExecEffect.of_ignoredWrite {i : Instr} {s t : State} {e : Engine} (he : s.engine? = some e)
    (h : writeReg (fun e => e) s = .next t) : ExecEffect i s e t := by
  rw [writeReg_id he rfl] at h
  cases h
  exact .ignored

/-- A command has its effect while idle, and none while busy (R161). -/
theorem ExecEffect.of_command {i : Instr} {s t : State} {e : Engine} {g : Engine → Engine} (w : Word)
    (hi : i ∈ commandsOf w) (he : s.engine? = some e) (hg : CommandEffect e (g e)) (h : Machine.command g s = .next t) :
    ExecEffect i s e t := by
  cases hb : e.busy with
  | true =>
    rw [command_busy he hb] at h
    cases h
    exact .ignored
  | false =>
    rw [command_idle he hb] at h
    cases h
    exact .command w hi _ hg

/-- A DIGEST while idle starts an operation or reports an error (R163, R164). -/
theorem CommandEffect.digestIdle (s : State) (e : Engine) : CommandEffect e (e.digestIdle s) := by
  unfold Engine.digestIdle
  split
  · exact .started _
  · exact .failed _

/-- The inversion of `exec` by the class of the instruction. -/
theorem exec_effect {i : Instr} {s t : State} {e : Engine} (h : exec i s = .next t) (he : s.engine? = some e) :
    ExecEffect i s e t := by
  cases i
  case unadmittedAccess => cases h
  case nop => exact .of_command 0 (by simp [commandsOf]) he .none h
  case digest => exact .of_command 0 (by simp [commandsOf]) he (.digestIdle s e) h
  case illegal w => exact .of_command w (by simp [commandsOf]) he (.failed _) h
  case wrCmd w =>
    refine .of_command w (by simp [commandsOf]) he ?_ h
    split
    · exact .none
    · exact .digestIdle s e
    · exact .failed _
  case wrSeed v =>
    rw [exec, execWrSeed, writeReg_some he] at h
    cases h
    exact .seed v rfl
  case wrSrc v =>
    rw [exec, execWrSrc, writeReg_some he] at h
    cases h
    exact .src v rfl
  case wrLen v =>
    rw [exec, execWrLen, writeReg_some he] at h
    cases h
    exact .len v rfl
  case rdCmd | rdStatus | rdSeed | rdSrc | rdLen | rdResult | rdReserved30 | rdReserved38 | rdReserved40 | rdReserved48 |
      rdReserved50 | rdReserved58 | rdReserved60 | rdReserved68 | rdReserved70 | rdReserved78 | rdReserved80 | rdReserved88 |
      rdReserved90 | rdReserved98 | rdReservedA0 | rdReservedA8 | rdReservedB0 | rdReservedB8 | rdReservedC0 | rdReservedC8 |
      rdReservedD0 | rdReservedD8 | rdReservedE0 | rdReservedE8 | rdReservedF0 | rdReservedF8 =>
    exact .of_readReg (by simp [registerReads, reservedReads]) he h
  all_goals exact .of_ignoredWrite he h

/-- No command is a register read. -/
theorem not_mem_registerReads_of_command {i : Instr} {w : Word} (hi : i ∈ commandsOf w) : i ∉ registerReads := by
  simp only [commandsOf, List.mem_cons, List.not_mem_nil, or_false] at hi
  obtain rfl | rfl | rfl | rfl := hi <;> simp [registerReads, reservedReads]

/-- A command keeps `RESULT`, the datapath registers and the operand registers (R29 to R32, R34). -/
theorem CommandEffect.keeps {e f : Engine} (h : CommandEffect e f) :
    f.result = e.result ∧ f.acc0 = e.acc0 ∧ f.acc1 = e.acc1 ∧ f.acc2 = e.acc2 ∧ f.fa = e.fa ∧ f.fb = e.fb ∧
      f.off = e.off ∧ f.rem = e.rem ∧ f.seed = e.seed ∧ f.src = e.src ∧ f.len = e.len := by
  cases h <;> exact ⟨rfl, rfl, rfl, rfl, rfl, rfl, rfl, rfl, rfl, rfl, rfl⟩

/-- The instance an access addresses reads as it was set. -/
theorem State.engine?_setEngine {s : State} {e : Engine} (he : s.engine? = some e) (f : Engine) :
    (s.setEngine s.target f).engine? = some f := State.setEngine_get he f

/-- Settles O24: each class of instruction keeps the registers it does not name. -/
theorem accessFrameOnItsInstance : Obligations.AccessFrameOnItsInstance := by
  intro i s t e f h he hf
  cases exec_effect h he with
  | read hi v =>
    obtain rfl : e = f := Option.some.inj (he.symm.trans hf)
    simp [hi]
  | ignored =>
    obtain rfl : e = f := Option.some.inj (he.symm.trans hf)
    simp
  | seed v hi | src v hi | len v hi =>
    obtain rfl := Option.some.inj ((State.engine?_setEngine he _).symm.trans hf)
    subst hi
    simp [registerReads, reservedReads]
  | command w hi g hg =>
    obtain rfl := Option.some.inj ((State.engine?_setEngine he _).symm.trans hf)
    obtain ⟨hr, h0, h1, h2, hfa, hfb, ho, hrem, hseed, hsrc, hlen⟩ := hg.keeps
    exact ⟨hr, h0, h1, h2, hfa, hfb, ho, hrem, fun _ => hseed, fun _ => hsrc, fun _ => hlen, fun hno => absurd hi (hno w),
      fun hread => absurd hread (not_mem_registerReads_of_command hi), fun _ => rfl⟩

end Sys2Proof.Machine
end

section
/-! PROOFS. When `RESULT`, `DONE` and `BUSY` of an instance change, by the one list of what a step can do to it; and that engine steps and
resets of different instances do not interfere. -/

namespace Sys2Proof.Machine

/-! ### The changes of `RESULT`, `DONE` and `BUSY` -/

/-- What an engine step does to an operation in progress: an action before FIN2, the completion, or the abort (R170, R177, R178). -/
inductive AdvanceEffect (c : Config) (e : Engine) : Engine → Prop where
  | running (f : Engine) (hb : f.busy = e.busy) (hd : f.done = e.done) (hr : f.result = e.result) : AdvanceEffect c e f
  | completed (hp : e.phase = .fin2) (S : SecretTable) (v : Word) : AdvanceEffect c e (stepFin2 S v e)
  | aborted (hn : e.readsOk c = false) (n : Nat) : AdvanceEffect c e (e.abort n)

/-- The inversion of an engine step by what the host can see of it. -/
theorem advance_effect (c : Config) (m : Memory) (n : Nat) (e : Engine) : AdvanceEffect c e (e.advance c m n) := by
  obtain ⟨-, hact⟩ | ⟨hn, habort⟩ := advance_cases c m n e
  · rw [hact]
    by_cases hfin2 : e.phase = .fin2
    · simp only [Engine.act, hfin2]
      exact .completed hfin2 _ _
    · obtain ⟨hb, hd, -, -, hr, -⟩ := act_keeps c.secret (e.bytes m) (Config.freeWord n) e hfin2
      exact .running _ hb hd hr
  · rw [habort]
    exact .aborted hn n

/-- `STATUS` after a completion is 0x2 (R177). -/
theorem stepFin2_statusWord (S : SecretTable) (v : Word) (e : Engine) : (stepFin2 S v e).statusWord = 0x2 := by
  simp [stepFin2, Engine.statusWord, flagWord]

/-- No register access writes `RESULT` (R32). -/
theorem AccessEffect.result_eq {c : Config} {e f : Engine} (h : AccessEffect c e f) : f.result = e.result := by
  cases h <;> rfl

/-- Settles O25: of all that a step can do to an instance, only its FIN2 step and its reset write `RESULT`. -/
theorem resultWrittenOnlyAtCompletion : Obligations.ResultWrittenOnlyAtCompletion := by
  intro s t k e f h he hf hne
  cases step_engineEffect h he hf with
  | same | noted => exact absurd rfl hne
  | reset n ha => exact .inr ⟨ha, rfl⟩
  | accessed _ hx => exact absurd hx.result_eq hne
  | advanced n ha _ =>
    generalize e.advance s.cfg s.mem n = f, advance_effect s.cfg s.mem n e = hx at hne ⊢
    cases hx with
    | running _ _ _ hr => exact absurd hr hne
    | completed hp S v => exact .inl ⟨ha, hp, stepFin2_statusWord S v e⟩
    | aborted _ m => exact absurd rfl hne

/-- A flag that keeps its value neither falls nor rises. -/
theorem falls_and_rises_of_eq {a b : Bool} {P Q : Prop} (h : b = a) :
    (a = true → b = false → P) ∧ (a = false → b = true → Q) := by
  subst h
  cases b <;> exact ⟨nofun, nofun⟩

/-- Settles O26: `DONE` falls by a start or a reset, and rises by a completion, an abort or a failed command. -/
theorem doneChangesOnlyByItsRules : Obligations.DoneChangesOnlyByItsRules := by
  intro s t k e f h he hf
  cases step_engineEffect h he hf with
  | same | noted => exact falls_and_rises_of_eq rfl
  | reset n ha => exact ⟨fun _ _ => .inr ha, nofun⟩
  | accessed _ hx =>
    cases hx with
    | none | seed | src | len => exact falls_and_rises_of_eq rfl
    | started hb _ r => exact ⟨fun _ _ => .inl ⟨hb, rfl, rfl⟩, nofun⟩
    | failed hb x hx =>
      have hcode : x.code = 0x01 ∨ x.code = 0x03 := by
        obtain rfl | rfl := hx <;> decide
      exact ⟨nofun, fun _ _ => ⟨rfl, rfl, .inr ⟨hb, hcode⟩⟩⟩
  | advanced n ha _ =>
    generalize e.advance s.cfg s.mem n = f, advance_effect s.cfg s.mem n e = hx
    cases hx with
    | running _ _ hd _ => exact falls_and_rises_of_eq hd
    | completed hp S v => exact ⟨nofun, fun _ _ => ⟨rfl, rfl, .inl ⟨ha, .inl hp⟩⟩⟩
    | aborted _ m => exact ⟨nofun, fun _ _ => ⟨rfl, rfl, .inl ⟨ha, .inr rfl⟩⟩⟩

/-- Settles O27: `BUSY` falls by a completion, an abort or a reset, and rises by a start alone. -/
theorem busyChangesOnlyByItsRules : Obligations.BusyChangesOnlyByItsRules := by
  intro s t k e f h he hf
  cases step_engineEffect h he hf with
  | same | noted => exact falls_and_rises_of_eq rfl
  | reset n ha => exact ⟨fun _ _ => .inr ha, nofun⟩
  | accessed _ hx =>
    cases hx with
    | none | seed | src | len => exact falls_and_rises_of_eq rfl
    | started _ hr r => exact ⟨nofun, fun _ _ => ⟨rfl, rfl, rfl, rfl, hr⟩⟩
    | failed hb x _ => exact falls_and_rises_of_eq hb.symm
  | advanced n ha _ =>
    generalize e.advance s.cfg s.mem n = f, advance_effect s.cfg s.mem n e = hx
    cases hx with
    | running _ hb _ _ => exact falls_and_rises_of_eq hb
    | completed hp S v => exact ⟨fun _ _ => .inl ⟨ha, rfl, .inl hp⟩, nofun⟩
    | aborted hn m => exact ⟨fun _ _ => .inl ⟨ha, rfl, .inr hn⟩, nofun⟩

/-! ### Engine steps and resets of different instances -/

/-- Instance `k` after its engine moved, as a function of the parameters, memory, the count of free values and instance `k` (R170, R213). -/
theorem engineMove_get (k : Nat) (s : State) :
    (engineMove k s).engines[k]? =
      s.engines[k]?.map (fun e => if e.phase = .idle then e else e.advance s.cfg s.mem s.free) := by
  unfold engineMove
  cases hk : s.engines[k]? with
  | none => simp [hk]
  | some e =>
    by_cases hp : e.phase = .idle
    · simp [hp, hk]
    · simpa [hp] using State.setEngine_get hk (e.advance s.cfg s.mem s.free)

/-- Instance `k` after its reset (R220). -/
theorem resetMove_get (k : Nat) (s : State) :
    (resetMove k s).engines[k]? = s.engines[k]?.map (fun _ => Engine.afterReset s.free) := by
  cases hk : s.engines[k]? with
  | none => simpa [resetMove] using hk
  | some e => simpa [resetMove] using State.setEngine_get hk (Engine.afterReset s.free)

/-- An engine step replaces instance `k` and draws free values, or does nothing (R170, R213). -/
theorem engineMove_eq (k : Nat) (s : State) :
    engineMove k s = s ∨ ∃ f, engineMove k s = (s.setEngine k f).drawn drawsPerMove := by
  unfold engineMove
  split
  · exact .inl rfl
  · split
    · exact .inl rfl
    · exact .inr ⟨_, rfl⟩

/-- An engine step or a reset leaves memory, the host agents, the parameters and every other instance (R45, R51). -/
theorem move_frame {s t : State} {k : Nat} {a : Agent} (ha : a = .engine k ∨ a = .reset k) (h : move a s = .next t) :
    t.mem = s.mem ∧ t.hosts = s.hosts ∧ t.cfg = s.cfg ∧ ∀ j ≠ k, t.engines[j]? = s.engines[j]? := by
  have hset : t = s ∨ ∃ f, t = (s.setEngine k f).drawn drawsPerMove := by
    obtain rfl | rfl := ha <;> cases h
    · exact engineMove_eq k s
    · exact .inr ⟨_, rfl⟩
  obtain rfl | ⟨f, rfl⟩ := hset
  · exact ⟨rfl, rfl, rfl, fun _ _ => rfl⟩
  · exact ⟨rfl, rfl, rfl, fun _ hj => State.setEngine_get_ne s f hj⟩

/-- Settles O29: the move replaces one instance, by a value that no other instance enters. -/
theorem instancesDoNotInterfere : Obligations.InstancesDoNotInterfere := by
  intro s t k a ha h
  obtain ⟨hmem, hhosts, hcfg, hothers⟩ := move_frame ha h
  refine ⟨hmem, hhosts, hcfg, hothers, ?_⟩
  intro s' t' hcfg' hmem' hfree' hk' h'
  obtain rfl | rfl := ha <;> cases h <;> cases h'
  · rw [engineMove_get, engineMove_get, hcfg', hmem', hfree', hk']
  · rw [resetMove_get, resetMove_get, hfree', hk']

end Sys2Proof.Machine
end

section
/-! PROOFS. The lines of a host sequence (R84, R85) as accesses: their descriptors, and the bit that `wait` tests. -/

namespace Sys2Proof.Machine

/-- Going on without a change. -/
theorem onNext_next_self (r : Answer) : onNext r (fun u => .next u) = r := by
  cases r <;> rfl

/-- The descriptor of a write is 0x100 and the offset (R75). -/
theorem descriptor_write (off : BitVec 8) : descriptor true off = 0x100 + off.setWidth 9 := by
  revert off; decide

/-- The descriptor of a read is the offset (R75). -/
theorem descriptor_read (off : BitVec 8) : descriptor false off = off.setWidth 9 := by
  simp [descriptor]

/-- Bit 0 of `STATUS` is `BUSY` (R23). -/
theorem statusWord_and_one (e : Engine) : e.statusWord &&& 0x1 = flagWord e.busy := by
  have hbit : e.statusWord.getLsbD 0 = e.busy := by simp [Engine.statusWord, flagWord]
  exact BitVec.and_one_eq_setWidth_ofBool_getLsbD.trans (by rw [hbit, flagWord])

/-- The condition of `wait` holds of `STATUS` exactly when the instance is not busy (R85). -/
theorem wait_holds_iff_not_busy (e : Engine) : (Cond.maskEq 0x1 0x0).holds e.statusWord = !e.busy := by
  rw [Cond.holds, statusWord_and_one]
  cases e.busy <;> rfl

/-- Settles O10: each line is a bus access into the window at its base, and the step runs what its descriptor decodes to. -/
theorem notationLinesEncode : Obligations.NotationLinesEncode := by
  intro s t j k b r imm name hcfg hb
  have hwindow : s.cfg.windowOf (r.addr b) = some (k, r.offset) := windowsDoNotOverlap s.cfg k b r.offset hcfg hb
  refine ⟨fun h => ?_, fun h => ?_, rfl, rfl, rfl, wait_holds_iff_not_busy⟩
  · rw [stepRunsDecodedInstruction.1 s t j _ none k r.offset h hwindow rfl]
    exact (onNext_next_self _).trans (by rw [descriptor_write]; rfl)
  · rw [stepRunsDecodedInstruction.1 s t j _ (some name) k r.offset h hwindow rfl]
    simp only [readAt, descriptor_read]
    rfl

end Sys2Proof.Machine
end

section
/-! PROOFS. Host memory as the engine reads it: reads of every width are little-endian, the digest sees its buffer alone, and every byte a
step uses lies in that buffer; that only a `memwr` line writes memory; and the completion, which reads none. -/

namespace Sys2Proof.Machine

/-! ### Who writes memory (R51) -/

/-- Settles O28: of all that a step can do, only a `memwr` line leaves another memory. -/
theorem memoryWrittenOnlyByHosts : Obligations.MemoryWrittenOnlyByHosts := by
  intro s t h hne
  obtain ⟨-, -, heffect⟩ := step_cases h
  cases heffect with
  | memwr j addr bytes h lines ha hh hl => exact ⟨j, h, addr, bytes, lines, ha, hh, hl⟩
  | quiet hm | engine _ _ _ _ _ _ hm | reset _ _ _ hm | access _ _ _ _ _ _ _ hm => exact absurd hm hne

/-! ### The byte order of a read (R52, R54) -/

/-- A read of `m + n` bytes is the read of the first `m`, and above it the read of the other `n` (R52). -/
theorem leRead_add (B : Nat → Byte) (k m n : Nat) :
    leRead B k (m + n) = leRead B k m + 2 ^ (8 * m) * leRead B (k + m) n := by
  induction m generalizing k with
  | zero => simp [leRead]
  | succ m ih =>
    rw [Nat.add_right_comm, leRead, leRead, ih (k + 1), Nat.add_assoc k 1 m, Nat.add_comm 1 m]
    ring

/-- The low bytes of a read are the shorter read at the same offset. -/
theorem leRead_mod (B : Nat → Byte) (k m n : Nat) : leRead B k (m + n) % 2 ^ (8 * m) = leRead B k m := by
  rw [leRead_add, Nat.add_mul_mod_self_left, Nat.mod_eq_of_lt (leRead_lt B k m)]

/-- A read without its low `m` bytes is the read `m` bytes on. -/
theorem leRead_shiftRight (B : Nat → Byte) (k m n : Nat) : leRead B k (m + n) >>> (8 * m) = leRead B (k + m) n := by
  rw [leRead_add, Nat.shiftRight_eq_div_pow, Nat.add_mul_div_left _ _ (Nat.two_pow_pos _),
    Nat.div_eq_of_lt (leRead_lt B k m), Nat.zero_add]

/-- Byte `j` of a read is the byte at offset `k + j` (R52). -/
theorem leRead_byte (B : Nat → Byte) (k : Nat) {j n : Nat} (h : j < n) :
    leRead B k n >>> (8 * j) % 2 ^ 8 = (B (k + j)).toNat := by
  obtain ⟨d, rfl⟩ := Nat.exists_eq_add_of_lt h
  rw [Nat.add_assoc, Nat.add_comm d, leRead_shiftRight]
  exact leRead_mod B (k + j) 1 d

/-- The value of `MemRead(k, n)` (R52). -/
theorem memRead_toNat (B : Nat → Byte) (k n : Nat) : (memRead B k n).toNat = leRead B k n :=
  (BitVec.toNat_ofNat ..).trans (Nat.mod_eq_of_lt (leRead_lt B k n))

/-- The value of `R8(k)` (R106). -/
theorem r8_toNat (B : Nat → Byte) (k : Nat) : (r8 B k).toNat = leRead B k 8 := memRead_toNat B k 8

/-- The value of `R4(k)` (R107). -/
theorem r4_toNat (B : Nat → Byte) (k : Nat) : (r4 B k).toNat = leRead B k 4 :=
  (BitVec.toNat_setWidth_of_le (by decide)).trans (memRead_toNat B k 4)

/-- A word whose value is a read of `n` bytes has the byte at offset `k + j` as its byte `j`. -/
theorem extract_byte_of_toNat_eq {w k j n : Nat} {B : Nat → Byte} {x : BitVec w} (hx : x.toNat = leRead B k n) (h : j < n) :
    x.extractLsb' (8 * j) 8 = B (k + j) :=
  BitVec.eq_of_toNat_eq (by rw [BitVec.extractLsb'_toNat, hx, leRead_byte B k h])

/-- The high half of R4 is 0: no byte of the read is left there (R107). -/
theorem r4_high (B : Nat → Byte) (k : Nat) : (r4 B k).extractLsb' 32 32 = 0 := by
  apply BitVec.eq_of_toNat_eq
  rw [BitVec.extractLsb'_toNat, r4_toNat, leRead_shiftRight B k 4 0]
  rfl

/-- The low halves of R8 and R4 agree (R54). -/
theorem r8_low_eq_r4_low (B : Nat → Byte) (k : Nat) : (r8 B k).extractLsb' 0 32 = (r4 B k).extractLsb' 0 32 := by
  apply BitVec.eq_of_toNat_eq
  have hlow : leRead B k 8 % 2 ^ 32 = leRead B k 4 % 2 ^ 32 := by
    rw [leRead_mod B k 4 4, leRead_mod B k 4 0]
  simpa only [BitVec.extractLsb'_toNat, r8_toNat, r4_toNat, Nat.shiftRight_zero] using hlow

/-- Settles O32: the value of each read is its bytes summed from the lowest, so its byte `j` is the byte at `k + j`. -/
theorem readsAreLittleEndian : Obligations.ReadsAreLittleEndian := fun B k n =>
  ⟨fun _ hj => extract_byte_of_toNat_eq (memRead_toNat B k n) hj, fun _ hj => extract_byte_of_toNat_eq (r8_toNat B k) hj,
    r4_high B k, r8_low_eq_r4_low B k, extract_byte_of_toNat_eq (j := 0) (r4_toNat B k) (by decide)⟩

/-! ### The buffer of an operation (R55, R57, R120) -/

/-- Settles O34: no sub-function of the digest reads past the buffer. -/
theorem digestDependsOnlyOnBuffer : Obligations.DigestDependsOnlyOnBuffer := fun _ _ _ _ seed hBC => digest_congr hBC seed

/-- The bytes of a short band lie in its buffer (R128 to R130). -/
theorem lt_of_mem_shortNeeds {n o : Nat} (hn : n ≤ 16) (h : o ∈ shortNeeds n) : o < n := by
  unfold shortNeeds at h
  split at h
  case isTrue => cases h
  case isFalse h0 =>
    split at h
    case isTrue =>
      simp only [List.mem_cons, List.not_mem_nil, or_false, Nat.shiftRight_one] at h
      omega
    case isFalse =>
      simp only [List.mem_append, mem_offsets, pairOffset_eq] at h
      omega

/-- Every byte the next step uses lies in the buffer, by the registers of the phase (R57, R136). -/
theorem Engine.phaseInv.needs_lt {e : Engine} (h : e.phaseInv) {o : Nat} (ho : o ∈ e.needs) : o < e.lLen.toNat := by
  unfold Engine.phaseInv at h
  unfold Engine.needs at ho
  cases hp : e.phase <;> simp only [hp, List.not_mem_nil] at h ho
  case short => exact lt_of_mem_shortNeeds h ho
  case bulk =>
    obtain ⟨hrem, hsplit⟩ := h
    have hlen : e.off.toNat + e.rem.toNat = e.lLen.toNat := hsplit
    have hread := mem_offsets.1 ho
    omega
  case fold16 =>
    obtain ⟨-, hrem, -, hsplit⟩ := h
    have hlen : e.off.toNat + e.rem.toNat = e.lLen.toNat := hsplit
    have hread := mem_offsets.1 ho
    omega
  case tail =>
    obtain ⟨hlen, -, -⟩ := h
    have hread := mem_offsets.1 ho
    omega

/-- The range check, in integers (R161). -/
theorem rangeOk_iff {c : Config} {src len : Word} :
    rangeOk c src len = true ↔ len = 0 ∨ src.toNat + len.toNat ≤ 2 ^ c.addrW := by
  simp only [rangeOk, Bool.or_eq_true, beq_iff_eq, decide_eq_true_eq]

/-- A buffer that passed the range check lies in host memory (R55). -/
theorem lt_of_rangeOk {c : Config} {src len : Word} {o : Nat} (h : rangeOk c src len = true) (ho : o < len.toNat) :
    src.toNat + o < 2 ^ c.addrW := by
  obtain rfl | hfit := rangeOk_iff.1 h
  · exact absurd ho (Nat.not_lt_zero o)
  · omega

/-- A step that uses a byte belongs to an operation in progress (R170). -/
theorem phase_ne_idle_of_mem_needs {e : Engine} {o : Nat} (ho : o ∈ e.needs) : e.phase ≠ .idle := by
  intro hp
  simp [Engine.needs, hp] at ho

/-- Settles O48: the registers of the phase keep the reads in the buffer, and the range check keeps the buffer in host memory. -/
theorem readsStayInsideBuffer : Obligations.ReadsStayInsideBuffer := by
  intro c e h o ho
  have hlt := h.phase_regs.needs_lt ho
  have hrange := h.range_ok (h.busy_iff.2 (phase_ne_idle_of_mem_needs ho))
  exact ⟨hlt, lt_of_rangeOk hrange hlt⟩

/-! ### Completion (R177) -/

/-- Settles O45: FIN2 uses no byte, so it cannot abort. -/
theorem fin2StepCompletes : Obligations.Fin2StepCompletes := by
  intro s k e rest hs hk hp
  have hreads : e.readsOk s.cfg = true := readsOk_of_no_needs (by simp [Engine.needs, hp])
  have hadvance : e.advance s.cfg s.mem s.free = stepFin2 s.cfg.secret (Config.freeWord s.free) e := by
    simp only [Engine.advance, hreads, if_true, Engine.act, hp]
  refine ⟨(stepFin2 s.cfg.secret (Config.freeWord s.free) e).result, ?_, fun hr => ?_⟩
  · rw [step_engine hs hk (by simp [hp]), hadvance]
    rfl
  · simp only [stepFin2, hr, fin2]
    rfl

end Sys2Proof.Machine
end

section
/-! PROOFS. The lines of a host agent that touch memory or a window: where a `memwr` line lands and where it stops, what a `fence` does,
which operations start raced, and which transfers are refused. -/

namespace Sys2Proof.Machine

/-! ### A `memwr` line (R65, R66, R84) -/

/-- What a write of a host agent does to `raced` of an instance (R66). -/
theorem noteWrite_raced (r : Region) (e : Engine) :
    e.noteWrite r = { e with raced := e.raced || (e.busy && r.overlaps e.buffer) } := by
  unfold Engine.noteWrite
  split
  case isTrue h => simp [h]
  case isFalse h => simp [h]

/-- A `memwr` line past the end of host memory stops with a fault (R50). -/
theorem hostMemwr_past_end {j addr : Nat} {bytes : List Byte} {s : State} (h : 2 ^ s.cfg.addrW < addr + bytes.length) :
    hostMemwr j addr bytes s = .fault .noSuchAddress := if_pos h

/-- A `memwr` line inside host memory that reaches into a window is refused (R84, R60). -/
theorem hostMemwr_into_window {j addr : Nat} {bytes : List Byte} {s : State} (h : addr + bytes.length ≤ 2 ^ s.cfg.addrW)
    (hw : ∃ b ∈ s.cfg.bases, Region.overlaps ⟨addr, bytes.length⟩ ⟨b, windowSize⟩ = true) :
    hostMemwr j addr bytes s = .refused .memwrToWindow :=
  (if_neg (Nat.not_lt_of_le h)).trans (if_pos (List.any_eq_true.2 hw))

/-- A `memwr` line inside host memory and outside every window completes (R84). -/
theorem hostMemwr_lands {j addr : Nat} {bytes : List Byte} {s : State} {h : HostAgent} (hj : s.hosts[j]? = some h)
    (hfit : addr + bytes.length ≤ 2 ^ s.cfg.addrW)
    (hw : ∀ b ∈ s.cfg.bases, Region.overlaps ⟨addr, bytes.length⟩ ⟨b, windowSize⟩ = false) :
    hostMemwr j addr bytes s = .next { s with
      mem := s.mem.writeBytes addr bytes
      engines := s.engines.map (Engine.noteWrite ⟨addr, bytes.length⟩)
      hosts := s.hosts.set j { h with unfenced := ⟨addr, bytes.length⟩ :: h.unfenced } } := by
  have hany : s.cfg.bases.any (fun b => Region.overlaps ⟨addr, bytes.length⟩ ⟨b, windowSize⟩) = false := by
    simpa using hw
  simp only [hostMemwr, if_neg (Nat.not_lt_of_le hfit), hany, hj]
  rfl

/-- Taking a line off leaves memory and the instances. -/
theorem State.takesLine.mem_engines_eq {s t : State} {j : Nat} {l : HostLine} (h : s.takesLine j l t) :
    t.mem = s.mem ∧ t.engines = s.engines := by
  obtain ⟨_, _, _, _, _, _, rfl⟩ := h
  exact ⟨rfl, rfl⟩

/-- Settles O57: the line lands, and a read in its range gives its byte, a read elsewhere the old one. -/
theorem memwrWritesItsBytes : Obligations.MemwrWritesItsBytes := by
  intro s t j addr bytes h hwf hl hj hfit hw
  obtain ⟨hmem, hengines⟩ := hl.mem_engines_eq
  rw [← hl.cfg_eq] at hfit hw
  refine ⟨s.mem.writeBytes addr bytes, ?_, fun i hi => ?_, fun a ha => ?_⟩
  · rw [hl.step_eq, hostLine, hostMemwr_lands hj hfit hw, hmem, hengines, funext (noteWrite_raced ⟨addr, bytes.length⟩)]
    rfl
  · rw [Memory.read_writeBytes hwf, if_pos (by omega), Nat.add_sub_cancel_left]
  · rw [Memory.read_writeBytes hwf, if_neg (by omega)]

/-- Settles O58: the end of host memory is tested before the windows, so the two stops exclude each other. -/
theorem memwrStopsOutsideMemory : Obligations.MemwrStopsOutsideMemory := by
  intro s t j addr bytes hl
  rw [hl.step_eq, ← hl.cfg_eq]
  exact ⟨hostMemwr_past_end, hostMemwr_into_window⟩

/-! ### When an operation starts raced (R58, R65) -/

/-- Two ranges overlap exactly when they share an address. -/
theorem Region.overlaps_iff {r b : Region} :
    r.overlaps b = true ↔ ∃ a, r.contains a = true ∧ b.contains a = true := by
  simp only [Region.overlaps, Region.contains, Bool.and_eq_true, decide_eq_true_eq]
  constructor
  · intro h
    exact ⟨max r.base b.base, by omega⟩
  · rintro ⟨a, h⟩
    omega

/-- When an operation over a buffer starts raced, address by address (R58, R65). -/
theorem startsRaced_iff (s : State) (b : Region) :
    s.startsRaced b = true ↔
      (∃ h ∈ s.hosts, ∃ r ∈ h.unfenced, ∃ a, r.contains a = true ∧ b.contains a = true) ∨
      (∃ r ∈ s.cfg.nonIdempotent, ∃ a, r.contains a = true ∧ b.contains a = true) := by
  simp only [State.startsRaced, Bool.or_eq_true, List.any_eq_true, Region.overlaps_iff]

/-- A DIGEST while idle whose range is in order starts the operation (R163). -/
theorem execDigest_starts {s : State} {e : Engine} (he : s.engine? = some e) (hb : e.busy = false)
    (hr : rangeOk s.cfg e.src e.len = true) :
    exec .digest s = .next (s.setEngine s.target (e.start (s.startsRaced (bufferRegion e.src e.len)))) := by
  rw [exec, execDigest, command_idle he hb, Engine.digestIdle, if_pos hr]

/-- A `fence` line empties the unfenced ranges of its agent (R84). -/
theorem hostFence_some {j : Nat} {s : State} {h : HostAgent} (hj : s.hosts[j]? = some h) :
    hostFence j s = .next (s.setHost j { h with unfenced := [] }) := by
  simp only [hostFence, hj]

/-- Settles O59: the operation starts with `raced` as `startsRaced` says, and the line of a `fence` is `hostFence`. -/
theorem visibilityDecidesRace : Obligations.VisibilityDecidesRace := by
  constructor
  · intro s e f t he hb hr hexec hf
    rw [execDigest_starts he hb hr] at hexec
    cases hexec
    rw [State.engine?_setEngine he] at hf
    cases hf
    exact startsRaced_iff s _
  · intro s t j h hl hj
    rw [hl.step_eq, hostLine, hostFence_some hj, State.setHost]

/-! ### Accesses that are not admitted (R60, R75) -/

/-- Settles O16: the refusal is all the meaning such an access has. -/
theorem unadmittedAccessRefused : Obligations.UnadmittedAccessRefused := fun _ _ _ _ => rfl

/-- Every admitted read is at a multiple of 8 (R75). -/
theorem aligned_of_decodeRead {off : Nat} {i : Instr} (h : decodeRead off = some i) : off % 8 = 0 := by
  unfold decodeRead at h
  split at h <;> cases h <;> rfl

/-- Every admitted write is at a multiple of 8 (R75). -/
theorem aligned_of_decodeWrite {off : Nat} {v : Word} {i : Instr} (h : decodeWrite off v = some i) : off % 8 = 0 := by
  unfold decodeWrite at h
  split at h <;> cases h <;> rfl

/-- `off` of a descriptor is the offset it was made with (R75). -/
theorem descriptorOff_descriptor (write : Bool) (off : BitVec 8) : descriptorOff (descriptor write off) = off := by
  revert write off; decide

/-- An access at an offset that is not a multiple of 8 decodes to no admitted access (R75). -/
theorem decodeAccess_of_unaligned {d : BitVec 9} (h : (descriptorOff d).toNat % 8 ≠ 0) (data : Word) :
    ∃ write v, decodeAccess d data = .unadmittedAccess write (descriptorOff d) v := by
  unfold decodeAccess
  split
  case isTrue =>
    have hnone : decodeWrite (descriptorOff d).toNat data = none :=
      Option.eq_none_iff_forall_ne_some.2 fun _ hi => h (aligned_of_decodeWrite hi)
    exact ⟨true, data, by rw [hnone, Option.getD_none]⟩
  case isFalse =>
    have hnone : decodeRead (descriptorOff d).toNat = none :=
      Option.eq_none_iff_forall_ne_some.2 fun _ hi => h (aligned_of_decodeRead hi)
    exact ⟨false, 0, by rw [hnone, Option.getD_none]⟩

/-- A transfer into a window of a width other than 64 bits is refused (R60). -/
theorem busAccess_of_width {a : BusAccess} {s : State} {k : Nat} {off : BitVec 8}
    (hw : s.cfg.windowOf a.addr = some (k, off)) (hs : a.size ≠ 8) : busAccess a s = .refused .unadmittedAccess := by
  simp only [busAccess, hw, if_neg hs]

/-- A transfer into a window at an offset that is not a multiple of 8 is refused (R60, R75). -/
theorem busAccess_of_unaligned {a : BusAccess} {s : State} {k : Nat} {off : BitVec 8}
    (hw : s.cfg.windowOf a.addr = some (k, off)) (h : off.toNat % 8 ≠ 0) :
    busAccess a s = .refused .unadmittedAccess := by
  by_cases hs : a.size = 8
  · rw [← descriptorOff_descriptor a.write off] at h
    obtain ⟨write, v, hdecode⟩ := decodeAccess_of_unaligned h (if a.write then a.data else 0)
    rw [busAccess_of_windowOf hw hs, issue, decode, hdecode]
    rfl
  · exact busAccess_of_width hw hs

/-- Settles O8: the transfer is refused before the line can bind a value. -/
theorem unsupportedWindowAccessRefused : Obligations.UnsupportedWindowAccessRefused := by
  intro s t j a bind k off hl hw h
  rw [← hl.cfg_eq] at hw
  rw [hl.step_eq, hostLine, hostBus, h.elim (busAccess_of_width hw) (busAccess_of_unaligned hw), onNext]

end Sys2Proof.Machine
end

section
/-! PROOFS. The encoded forms (R70 to R77): numbers and their bytes, an access and its descriptor, and that encoding and decoding undo each
other, first on the two forms and then on bytes. -/

namespace Sys2Proof.Machine

/-! ### Numbers as bytes (R61) -/

/-- `n` bytes of a number are `n` bytes. -/
@[simp] theorem length_leBytes (n v : Nat) : (leBytes n v).length = n := by
  induction n generalizing v with
  | zero => rfl
  | succ n ih => simp [leBytes, ih]

/-- A number that fits in `n` bytes is the value of those bytes. -/
theorem leNat_leBytes {n v : Nat} (h : v < 256 ^ n) : leNat (leBytes n v) = v := by
  induction n generalizing v with
  | zero => simpa [leBytes, leNat, eq_comm] using h
  | succ n ih =>
    have hdiv : v / 256 < 256 ^ n := Nat.div_lt_of_lt_mul (by rwa [← Nat.pow_succ'])
    rw [leBytes, leNat, ih hdiv, BitVec.toNat_ofNat]
    omega

/-- The value of bytes fits in as many bytes. -/
theorem leNat_lt (bs : List Byte) : leNat bs < 256 ^ bs.length := by
  induction bs with
  | nil => simp [leNat]
  | cons b bs ih =>
    rw [leNat, List.length_cons, Nat.pow_succ']
    have hb := b.isLt
    omega

/-- Bytes are the bytes of their value. -/
theorem leBytes_leNat (bs : List Byte) : leBytes bs.length (leNat bs) = bs := by
  induction bs with
  | nil => rfl
  | cons b bs ih =>
    have hb := b.isLt
    have hdiv : (b.toNat + 256 * leNat bs) / 256 = leNat bs := by omega
    have hlow : BitVec.ofNat 8 (b.toNat + 256 * leNat bs) = b := BitVec.eq_of_toNat_eq (by simp; omega)
    rw [leNat, List.length_cons, leBytes, hdiv, hlow, ih]

/-- A value of `w` bits is read back from `n` bytes that can hold it. -/
theorem ofNat_leNat_leBytes {w n : Nat} (x : BitVec w) (h : 2 ^ w ≤ 256 ^ n) :
    BitVec.ofNat w (leNat (leBytes n x.toNat)) = x := by
  rw [leNat_leBytes (x.isLt.trans_le h), BitVec.ofNat_toNat, BitVec.setWidth_eq]

/-- `n` bytes whose value has `w` bits are the bytes of that value of `w` bits. -/
theorem leBytes_toNat_ofNat {w n : Nat} {bs : List Byte} (hn : bs.length = n) (h : leNat bs < 2 ^ w) :
    leBytes n (BitVec.ofNat w (leNat bs)).toNat = bs := by
  rw [BitVec.toNat_ofNat, Nat.mod_eq_of_lt h, ← hn, leBytes_leNat]

/-! ### Descriptors (R75) -/

/-- The value of a descriptor is `0x100 * W + off`. -/
theorem descriptor_toNat (write : Bool) (off : BitVec 8) :
    (descriptor write off).toNat = (if write then 0x100 else 0) + off.toNat := by
  revert write off; decide

/-- `W` of a descriptor is the direction it was made with. -/
theorem descriptorWrite_descriptor (write : Bool) (off : BitVec 8) : descriptorWrite (descriptor write off) = write := by
  revert write off; decide

/-- A descriptor is made of its own two fields. -/
theorem descriptor_fields (d : BitVec 9) : descriptor (descriptorWrite d) (descriptorOff d) = d := by
  revert d; decide

/-- Every descriptor is one of a read or of a write at some offset. -/
theorem exists_descriptor (d : BitVec 9) : ∃ write off, d = descriptor write off :=
  ⟨_, _, (descriptor_fields d).symm⟩

/-- `W` is set in the descriptors from 0x100 on. -/
theorem descriptorWrite_iff {d : BitVec 9} : descriptorWrite d = true ↔ 0x100 ≤ d.toNat := by
  revert d; decide

/-- A number written as a descriptor of `W` and `off`. -/
theorem descriptor_eq_ofNat (write : Bool) (off : BitVec 8) :
    descriptor write off = BitVec.ofNat 9 ((if write then 0x100 else 0) + off.toNat) := by
  rw [← descriptor_toNat, BitVec.ofNat_toNat, BitVec.setWidth_eq]

/-! ### The tables of admitted accesses (R75) -/

/-- A table with an entry at every multiple of 8 below 0x100 and at no other offset lacks exactly the other offsets. -/
theorem eq_none_iff_unaligned {table : Nat → Option Instr} (haligned : ∀ off i, table off = some i → off % 8 = 0)
    (hall : ∀ k < 32, (table (8 * k)).isSome) {off : Nat} (h : off < 0x100) : table off = none ↔ off % 8 ≠ 0 := by
  constructor
  · intro hnone hmod
    obtain ⟨k, rfl⟩ := Nat.dvd_of_mod_eq_zero hmod
    exact Option.isSome_iff_ne_none.1 (hall k (by omega)) hnone
  · exact fun hmod => Option.eq_none_iff_forall_ne_some.2 fun i hi => hmod (haligned off i hi)

/-- A read is admitted at the multiples of 8 and nowhere else. -/
theorem decodeRead_eq_none_iff {off : Nat} (h : off < 0x100) : decodeRead off = none ↔ off % 8 ≠ 0 :=
  eq_none_iff_unaligned (fun _ _ => aligned_of_decodeRead) (by decide) h

/-- A write is admitted at the multiples of 8 and nowhere else. -/
theorem decodeWrite_eq_none_iff {off : Nat} (v : Word) (h : off < 0x100) : decodeWrite off v = none ↔ off % 8 ≠ 0 :=
  eq_none_iff_unaligned (table := (decodeWrite · v)) (fun _ _ => aligned_of_decodeWrite)
    (fun k hk => by interval_cases k <;> rfl) h

/-- The encoding of an admitted read has its offset and no data, and the instruction is well formed. -/
theorem encode_of_decodeRead {off : Nat} {i : Instr} (h : decodeRead off = some i) :
    i.wf = true ∧ encode i = .access (BitVec.ofNat 9 off) 0 := by
  unfold decodeRead at h
  split at h <;> cases h <;> exact ⟨rfl, rfl⟩

/-- The encoding of an admitted write has `W` set, its offset and its data, and the instruction is well formed. -/
theorem encode_of_decodeWrite {off : Nat} {v : Word} {i : Instr} (h : decodeWrite off v = some i) :
    i.wf = true ∧ encode i = .access (BitVec.ofNat 9 (0x100 + off)) v := by
  unfold decodeWrite at h
  split at h <;> cases h <;> exact ⟨rfl, rfl⟩

/-- A read decodes by the table of reads, its data ignored. -/
theorem decodeAccess_read (off : BitVec 8) (data : Word) :
    decodeAccess (descriptor false off) data = (decodeRead off.toNat).getD (.unadmittedAccess false off 0) := by
  simp [decodeAccess, descriptorWrite_descriptor, descriptorOff_descriptor]

/-- A write decodes by the table of writes. -/
theorem decodeAccess_write (off : BitVec 8) (data : Word) :
    decodeAccess (descriptor true off) data = (decodeWrite off.toNat data).getD (.unadmittedAccess true off data) := by
  simp [decodeAccess, descriptorWrite_descriptor, descriptorOff_descriptor]

/-! ### The two forms (R70) -/

/-- A form that bytes can carry: a read has no data (R75). -/
def readsWithoutData : Encoded → Bool
  | .command _ => true
  | .access d data => descriptorWrite d || data == 0

/-- A command word decodes to a well-formed instruction that it encodes (R71). -/
theorem encode_decodeCommand (w : Word) : (decodeCommand w).wf = true ∧ encode (decodeCommand w) = .command w := by
  unfold decodeCommand
  split
  case isTrue h0 => subst h0; exact ⟨rfl, rfl⟩
  case isFalse h0 =>
    split
    case isTrue h1 => subst h1; exact ⟨rfl, rfl⟩
    case isFalse h1 => exact ⟨by simpa [Instr.wf] using ⟨h0, h1⟩, rfl⟩

/-- A read decodes to a well-formed instruction whose encoding is that read without data (R75). -/
theorem encode_decodeAccess_read (off : BitVec 8) (data : Word) :
    (decodeAccess (descriptor false off) data).wf = true ∧
      encode (decodeAccess (descriptor false off) data) = .access (descriptor false off) 0 := by
  rw [decodeAccess_read]
  cases h : decodeRead off.toNat with
  | none =>
    have hodd := (decodeRead_eq_none_iff off.isLt).1 h
    exact ⟨by simpa [Instr.wf] using hodd, rfl⟩
  | some i =>
    obtain ⟨hwf, henc⟩ := encode_of_decodeRead h
    exact ⟨hwf, by simpa [descriptor_eq_ofNat] using henc⟩

/-- A write decodes to a well-formed instruction whose encoding is that write (R75). -/
theorem encode_decodeAccess_write (off : BitVec 8) (data : Word) :
    (decodeAccess (descriptor true off) data).wf = true ∧
      encode (decodeAccess (descriptor true off) data) = .access (descriptor true off) data := by
  rw [decodeAccess_write]
  cases h : decodeWrite off.toNat data with
  | none =>
    have hodd := (decodeWrite_eq_none_iff data off.isLt).1 h
    exact ⟨by simpa [Instr.wf] using hodd, rfl⟩
  | some i =>
    obtain ⟨hwf, henc⟩ := encode_of_decodeWrite h
    exact ⟨hwf, by rw [descriptor_eq_ofNat]; exact henc⟩

/-- A form that bytes can carry decodes to a well-formed instruction that it encodes. -/
theorem encode_decode {x : Encoded} (h : readsWithoutData x = true) :
    (decode x).wf = true ∧ encode (decode x) = x := by
  cases x with
  | command w => exact encode_decodeCommand w
  | access d data =>
    obtain ⟨write, off, rfl⟩ := exists_descriptor d
    cases write with
    | false =>
      obtain rfl : data = 0 := by simpa [readsWithoutData, descriptorWrite_descriptor] using h
      exact encode_decodeAccess_read off 0
    | true => exact encode_decodeAccess_write off data

/-- A well-formed instruction encodes to a form that bytes can carry and that decodes to it. -/
theorem decode_encode {i : Instr} (h : i.wf = true) :
    readsWithoutData (encode i) = true ∧ decode (encode i) = i := by
  cases i
  case illegal w =>
    obtain ⟨h0, h1⟩ : w ≠ 0 ∧ w ≠ 1 := by simpa [Instr.wf] using h
    exact ⟨rfl, by rw [encode, decode, decodeCommand, if_neg h0, if_neg h1]⟩
  case unadmittedAccess write off data =>
    obtain ⟨hmod, hdata⟩ : off.toNat % 8 ≠ 0 ∧ (write = true ∨ data = 0) := by simpa [Instr.wf] using h
    refine ⟨by simpa [encode, readsWithoutData, descriptorWrite_descriptor] using hdata, ?_⟩
    cases write with
    | false =>
      obtain rfl : data = 0 := hdata.resolve_left Bool.false_ne_true
      rw [encode, decode, decodeAccess_read, (decodeRead_eq_none_iff off.isLt).2 hmod, Option.getD_none]
    | true =>
      rw [encode, decode, decodeAccess_write, (decodeWrite_eq_none_iff data off.isLt).2 hmod, Option.getD_none]
  all_goals exact ⟨rfl, rfl⟩

/-! ### Bytes (R70, R77; log entry 11) -/

/-- The bytes of a read. -/
theorem bytes_read {d : BitVec 9} (data : Word) (h : d.toNat < 0x100) :
    (Encoded.access d data).bytes = leBytes 2 d.toNat := by
  rw [Encoded.bytes, if_neg (fun hw => (descriptorWrite_iff.1 hw).not_gt h)]

/-- The bytes of a write. -/
theorem bytes_write {d : BitVec 9} (data : Word) (h : 0x100 ≤ d.toNat) :
    (Encoded.access d data).bytes = leBytes 2 d.toNat ++ leBytes 8 data.toNat := by
  rw [Encoded.bytes, if_pos (descriptorWrite_iff.2 h)]

/-- The bytes of a form that bytes can carry decode to what the form decodes to. -/
theorem decodeBytes_bytes {x : Encoded} (h : readsWithoutData x = true) : decodeBytes x.bytes = .ok (decode x) := by
  cases x with
  | command w =>
    have hw : BitVec.ofNat 64 (leNat (leBytes 8 w.toNat)) = w := ofNat_leNat_leBytes w (by decide)
    simp [decodeBytes, Encoded.bytes, hw]
  | access d data =>
    have hd : leNat (leBytes 2 d.toNat) = d.toNat := leNat_leBytes (d.isLt.trans (by decide))
    have hlt : ¬0x200 ≤ d.toNat := Nat.not_le.2 d.isLt
    by_cases hw : 0x100 ≤ d.toNat
    · have hdata : BitVec.ofNat 64 (leNat (leBytes 8 data.toNat)) = data := ofNat_leNat_leBytes data (by decide)
      have htake : (leBytes 2 d.toNat ++ leBytes 8 data.toNat).take 2 = leBytes 2 d.toNat := List.take_left' (by simp)
      have hdrop : (leBytes 2 d.toNat ++ leBytes 8 data.toNat).drop 2 = leBytes 8 data.toNat := List.drop_left' (by simp)
      rw [bytes_write data hw]
      simp [decodeBytes, htake, hdrop, hd, hdata, hlt, Nat.not_lt.2 hw]
    · have hread : descriptorWrite d = false := by simpa using mt descriptorWrite_iff.1 hw
      obtain rfl : data = 0 := by simpa [readsWithoutData, hread] using h
      rw [bytes_read 0 (Nat.not_le.1 hw)]
      simp [decodeBytes, hd, hlt, hw]

/-- The three layouts: what bytes that decode are, by their number. -/
theorem decodeBytes_cases {bs : List Byte} {i : Instr} (h : decodeBytes bs = .ok i) :
    (bs.length = 8 ∧ i = decode (.command (BitVec.ofNat 64 (leNat bs)))) ∨
    (bs.length = 2 ∧ leNat bs < 0x100 ∧ i = decode (.access (BitVec.ofNat 9 (leNat bs)) 0)) ∨
    (bs.length = 10 ∧ 0x100 ≤ leNat (bs.take 2) ∧ leNat (bs.take 2) < 0x200 ∧
      i = decode (.access (BitVec.ofNat 9 (leNat (bs.take 2))) (BitVec.ofNat 64 (leNat (bs.drop 2))))) := by
  unfold decodeBytes at h
  split_ifs at h with h8 h2 h200 h100 h10 h200 h100 <;> cases h
  · exact .inl ⟨h8, rfl⟩
  · exact .inr (.inl ⟨h2, Nat.not_le.1 h100, rfl⟩)
  · exact .inr (.inr ⟨h10, Nat.not_lt.1 h100, Nat.not_le.1 h200, rfl⟩)

/-- Bytes that decode are the bytes of a form that bytes can carry, and decode as it does. -/
theorem exists_form_of_decodeBytes {bs : List Byte} {i : Instr} (h : decodeBytes bs = .ok i) :
    ∃ x, readsWithoutData x = true ∧ x.bytes = bs ∧ decode x = i := by
  obtain ⟨hlen, rfl⟩ | ⟨hlen, hread, rfl⟩ | ⟨hlen, hwrite, hlt, rfl⟩ := decodeBytes_cases h
  · have hword : leNat bs < 256 ^ 8 := hlen ▸ leNat_lt bs
    exact ⟨.command _, rfl, leBytes_toNat_ofNat hlen hword, rfl⟩
  · have hd : (BitVec.ofNat 9 (leNat bs)).toNat < 0x100 := by simp; omega
    refine ⟨.access _ 0, by simp [readsWithoutData], ?_, rfl⟩
    rw [bytes_read 0 hd, leBytes_toNat_ofNat hlen (by omega)]
  · have hd : 0x100 ≤ (BitVec.ofNat 9 (leNat (bs.take 2))).toNat := by simp; omega
    have htake : (bs.take 2).length = 2 := by simp [hlen]
    have hdrop : (bs.drop 2).length = 8 := by simp [hlen]
    have hdata : leNat (bs.drop 2) < 256 ^ 8 := hdrop ▸ leNat_lt (bs.drop 2)
    refine ⟨.access _ _, by simp [readsWithoutData, descriptorWrite_iff.2 hd], ?_, rfl⟩
    rw [bytes_write _ hd, leBytes_toNat_ofNat htake hlt, leBytes_toNat_ofNat hdrop hdata, List.take_append_drop]

/-- Settles O3: the bytes of the instruction's form decode as the form does, and the form decodes to the instruction. -/
theorem decodeOfEncodeIsIdentity : Obligations.DecodeOfEncodeIsIdentity := by
  intro i hi
  obtain ⟨hform, hdecode⟩ := decode_encode hi
  rw [encodeBytes, decodeBytes_bytes hform, hdecode]

/-- Settles O4: the bytes are those of one form, and what that form decodes to encodes to it. -/
theorem encodeOfDecodeIsIdentity : Obligations.EncodeOfDecodeIsIdentity := by
  intro bs i h
  obtain ⟨x, hx, rfl, rfl⟩ := exists_form_of_decodeBytes h
  obtain ⟨hwf, hencode⟩ := encode_decode hx
  exact ⟨hwf, by rw [encodeBytes, hencode]⟩

/-! ### The tables written out (R71 to R75) -/

/-- A command word is its fields `RSVD` and `OP` (R71). -/
theorem word_eq_iff_fields (w v : Word) :
    w = v ↔ w.extractLsb' 8 56 = v.extractLsb' 8 56 ∧ w.extractLsb' 0 8 = v.extractLsb' 0 8 := by
  refine ⟨fun h => h ▸ ⟨rfl, rfl⟩, fun ⟨hrsvd, hop⟩ => ?_⟩
  have happend : ∀ u : Word, u.extractLsb' 8 56 ++ u.extractLsb' 0 8 = u := fun u => by
    exact (BitVec.extractLsb'_append_extractLsb'_eq_extractLsb' rfl).trans BitVec.extractLsb'_eq_self
  rw [← happend w, hrsvd, hop, happend]

/-- Settles O1: a word is 0 or 1 exactly when its two fields are those of 0 or 1. -/
theorem commandWordDecodesByFields : Obligations.CommandWordDecodesByFields := by
  intro w
  refine ⟨rfl, ?_, rfl⟩
  have h0 : w = 0#64 ↔ w.extractLsb' 8 56 = 0#56 ∧ w.extractLsb' 0 8 = 0#8 := word_eq_iff_fields w 0
  have h1 : w = 1#64 ↔ w.extractLsb' 8 56 = 0#56 ∧ w.extractLsb' 0 8 = 1#8 := word_eq_iff_fields w 1
  by_cases hrsvd : w.extractLsb' 8 56 = 0#56 <;> simp [decode, decodeCommand, h0, h1, hrsvd]

/-- `off[2:0]` of a descriptor is `off` modulo 8. -/
theorem descriptorOff_mod_eight (d : BitVec 9) : (descriptorOff d).toNat % 8 = (d.extractLsb' 0 3).toNat := by
  revert d; decide

/-- The reserved reads are what the descriptors 0x030, 0x038, ..., 0x0F8 decode to. -/
theorem reservedReads_eq (v : Word) :
    reservedReads = (List.range 26).map fun k => decode (.access (BitVec.ofNat 9 (0x030 + 8 * k)) v) := rfl

/-- The reserved writes are what the descriptors 0x130, 0x138, ..., 0x1F8 decode to. -/
theorem reservedWrites_eq (v : Word) :
    reservedWrites v = (List.range 26).map fun k => decode (.access (BitVec.ofNat 9 (0x130 + 8 * k)) v) := rfl

/-- An entry of a list given by a function of the index is the value there. -/
theorem eq_of_getElem?_map_range {f : Nat → Instr} {n k : Nat} {i : Instr} (h : ((List.range n).map f)[k]? = some i) :
    f k = i := by
  obtain ⟨hk, rfl⟩ := List.getElem?_eq_some_iff.1 h
  simp

/-- Settles O2: the tables entry by entry, and the refusal because no table has an offset that is no multiple of 8. -/
theorem accessDescriptorTable : Obligations.AccessDescriptorTable := by
  refine ⟨descriptor_toNat, ?_, ?_, ?_, ?_⟩
  · intro v
    simp only [namedAccesses, List.forall_mem_cons]
    exact ⟨rfl, rfl, rfl, rfl, rfl, rfl, rfl, rfl, rfl, rfl, rfl, rfl, List.forall_mem_nil _⟩
  · intro v k i h
    rw [reservedReads_eq v] at h
    exact eq_of_getElem?_map_range h
  · intro v k i h
    rw [reservedWrites_eq] at h
    exact eq_of_getElem?_map_range h
  · intro d v s h
    have hmod : (descriptorOff d).toNat % 8 ≠ 0 := by
      rw [descriptorOff_mod_eight]
      exact fun h0 => h (BitVec.eq_of_toNat_eq h0)
    obtain ⟨write, u, hdecode⟩ := decodeAccess_of_unaligned hmod v
    rw [decode, hdecode]
    rfl

/-- Settles O5: six closed evaluations of the decoder. -/
theorem specWordsDecode : Obligations.SpecWordsDecode := ⟨rfl, rfl, rfl, rfl, rfl, rfl⟩

end Sys2Proof.Machine
end

section
/-! PROOFS. The `poll` line (R84): it stays the agent's next line until its condition holds of the value read. -/

namespace Sys2Proof.Machine

/-- A line taken off and put back leaves the host agents as they were. -/
theorem State.takesLine.put_back {s t : State} {j : Nat} {l : HostLine} (h : s.takesLine j l t) :
    ∃ g, t.hosts[j]? = some g ∧ t.hosts.set j { g with prog := l :: g.prog } = s.hosts := by
  obtain ⟨⟨prog, bound, unfenced⟩, _, lines, -, hj, hl, rfl⟩ := h
  obtain rfl : prog = l :: lines := hl
  obtain ⟨hlt, -⟩ := List.getElem?_eq_some_iff.1 hj
  exact ⟨⟨lines, bound, unfenced⟩, by simp [hlt],
    (List.set_set ..).trans (congrArg State.hosts (State.setHost_self hj))⟩

/-- A bus access that completes leaves the host agents as they were. -/
theorem busAccess_hosts {a : BusAccess} {s t : State} (h : busAccess a s = .next t) : t.hosts = s.hosts := by
  obtain ⟨k, off, -, -, hissue⟩ := busAccess_issue h
  exact exec_hosts (s := { s with target := k }) hissue

/-- Settles O7: the read completes, and where the condition fails the line is put back in front of the agent's lines. -/
theorem pollRepeatsUntilCondition : Obligations.PollRepeatsUntilCondition := by
  intro s t u j addr c hl hread
  obtain ⟨g, hg, hback⟩ := hl.put_back
  rw [hl.step_eq, hostLine, hostPoll, hread, onNext_of_next]
  constructor
  · exact fun hc => if_pos hc
  · intro hc
    rw [← busAccess_hosts hread] at hg hback
    simp only [hc, hg, State.setHost, hback]
    rfl

end Sys2Proof.Machine
end

section
/-! PROOFS. The datapath primitives (R100 to R102, R108): the mum unit, and the 3-byte packing, in integers. -/

namespace Sys2Proof.Machine

/-! ### The mum unit -/

/-- Two 64-bit factors have a product below `2^128`, so the 128-bit multiplication does not wrap (R100). -/
theorem mul128_toNat (a b : Word) : (mul128 a b).toNat = a.toNat * b.toNat := by
  have hlt : a.toNat * b.toNat < 2 ^ 64 * 2 ^ 64 := Nat.mul_lt_mul'' a.isLt b.isLt
  simpa [mul128] using hlt

theorem mul128_comm (a b : Word) : mul128 a b = mul128 b a := BitVec.mul_comm ..

theorem mum_comm (a b : Word) : mum a b = mum b a := by rw [mum, mul128_comm, mum]

theorem mum_fst_toNat (a b : Word) : (mum a b).1.toNat = a.toNat * b.toNat % 2 ^ 64 := by
  rw [mum, lo64, BitVec.extractLsb'_toNat, mul128_toNat, Nat.shiftRight_zero]

theorem mum_snd_toNat (a b : Word) : (mum a b).2.toNat = a.toNat * b.toNat / 2 ^ 64 := by
  have hlt : a.toNat * b.toNat / 2 ^ 64 < 2 ^ 64 := Nat.div_lt_of_lt_mul (Nat.mul_lt_mul'' a.isLt b.isLt)
  rw [mum, hi64, BitVec.extractLsb'_toNat, mul128_toNat, Nat.shiftRight_eq_div_pow, Nat.mod_eq_of_lt hlt]

/-- Settles O30: the two halves are the remainder and the quotient of the exact product by `2^64`. -/
theorem mumGivesExactProductHalves : Obligations.MumGivesExactProductHalves := by
  intro a b
  refine ⟨mul128_toNat a b, ?_, mum_comm a b, by decide, by decide, by decide⟩
  rw [mum_fst_toNat, mum_snd_toNat, Nat.mod_add_div]

/-! ### The fold of the product -/

theorem mix_toNat (a b : Word) :
    (mix a b).toNat = (a.toNat * b.toNat % 2 ^ 64) ^^^ (a.toNat * b.toNat / 2 ^ 64) := by
  rw [mix, BitVec.toNat_xor, mum_fst_toNat, mum_snd_toNat]

theorem mix_comm (a b : Word) : mix a b = mix b a := by rw [mix, mum_comm, mix]

/-- A product that fits in 64 bits has the high half 0 and is its own MIX (R102). -/
theorem mix_toNat_of_lt {a b : Word} (h : a.toNat * b.toNat < 2 ^ 64) : (mix a b).toNat = a.toNat * b.toNat := by
  rw [mix_toNat, Nat.mod_eq_of_lt h, Nat.div_eq_of_lt h, Nat.xor_zero]

theorem zero_mix (b : Word) : mix 0 b = 0 :=
  BitVec.eq_of_toNat_eq ((mix_toNat_of_lt (by simp)).trans (by simp))

theorem one_mix (b : Word) : mix 1 b = b :=
  BitVec.eq_of_toNat_eq ((mix_toNat_of_lt (by simp [b.isLt])).trans (by simp))

/-- Settles O31: the value is the xor of the remainder and the quotient of the product; the operands commute, so `MIX(a, 0)` and
`MIX(x, 1)` are `MIX(0, a)` and `MIX(1, x)`; the other corner cases are closed evaluations. -/
theorem mixFoldsTheProduct : Obligations.MixFoldsTheProduct := fun a b =>
  ⟨mix_toNat a b, zero_mix b, (mix_comm a 0).trans (zero_mix a), one_mix b, mix_comm a b, by decide,
    (mix_comm _ 1).trans (one_mix _), by decide, by decide, by decide, by decide⟩

/-! ### The 3-byte packing -/

/-- A byte moved up by at most 56 bits stays inside its word. -/
theorem setWidth_shiftLeft_toNat (x : Byte) {i : Nat} (h : i ≤ 56) : (x.setWidth 64 <<< i).toNat = x.toNat <<< i := by
  have hlt : x.toNat <<< i < 2 ^ (8 + 56) :=
    (Nat.shiftLeft_lt x.isLt).trans_le (Nat.pow_le_pow_right (by decide) (Nat.add_le_add_left h 8))
  rw [BitVec.toNat_shiftLeft, BitVec.toNat_setWidth_of_le (by decide), Nat.mod_eq_of_lt hlt]

/-- The three bytes of the packing do not overlap, so their `or` is their sum (R108). -/
theorem r3_toNat (B : Nat → Byte) (n : Nat) :
    (r3 B n).toNat = (B 0).toNat * 0x10000 + (B (n >>> 1)).toNat * 0x100 + (B (n - 1)).toNat := by
  have hpair : (B (n >>> 1)).toNat <<< 8 + (B (n - 1)).toNat < 2 ^ 16 := by
    rw [Nat.shiftLeft_eq]
    omega
  rw [r3, BitVec.toNat_or, BitVec.toNat_or, setWidth_shiftLeft_toNat _ (by decide),
    setWidth_shiftLeft_toNat _ (by decide), BitVec.toNat_setWidth_of_le (by decide), Nat.or_assoc,
    ← Nat.shiftLeft_add_eq_or_of_lt (B (n - 1)).isLt, ← Nat.shiftLeft_add_eq_or_of_lt hpair,
    Nat.shiftLeft_eq, Nat.shiftLeft_eq, Nat.add_assoc]

/-- The packing leaves bits 63:24 at 0 (R108). -/
theorem r3_high (B : Nat → Byte) (n : Nat) : (r3 B n).extractLsb' 24 40 = 0 := by
  have hlt : (r3 B n).toNat < 2 ^ 24 := by
    rw [r3_toNat]
    omega
  apply BitVec.eq_of_toNat_eq
  rw [BitVec.extractLsb'_toNat, Nat.shiftRight_eq_div_pow, Nat.div_eq_of_lt hlt]
  rfl

/-- Settles O33: the sum of `r3_toNat` at the three lengths; at length 1 all three bytes are `B[0]`, and
`0x010101` is the sum of their weights. -/
theorem threeBytePacking : Obligations.ThreeBytePacking := by
  intro B
  refine ⟨?_, r3_toNat B 2, r3_toNat B 3, r3_high B⟩
  calc (r3 B 1).toNat = (B 0).toNat * 0x10000 + (B 0).toNat * 0x100 + (B 0).toNat := r3_toNat B 1
    _ = (B 0).toNat * 0x010101 := by omega

end Sys2Proof.Machine
end

section
/-! PROOFS. The algorithm of the digest on its own: the number of rounds of its two loops, and its corner cases (R122 to R137). -/

namespace Sys2Proof.Machine

/-! ### The loops as a number of rounds -/

/-- Every bound that covers the remaining length gives `floor(rem / 48)` bulk rounds (R124). -/
theorem bulkLoop_eq_iterate {S : SecretTable} {B : Nat → Byte} {f : Nat} {l : Lanes} (h : l.rem.toNat ≤ 48 * f + 47) :
    bulkLoop S B f l = (bulkRound S B)^[l.rem.toNat / 48] l := by
  induction f generalizing l with
  | zero => rw [bulkLoop_of_lt (by omega), Nat.div_eq_of_lt (by omega), Function.iterate_zero_apply]
  | succ f ih =>
    by_cases hr : 48 ≤ l.rem.toNat
    · have hrem := bulkRound_rem (S := S) (B := B) hr
      have hdiv : l.rem.toNat / 48 = (bulkRound S B l).rem.toNat / 48 + 1 := by omega
      rw [bulkLoop_succ_of_le hr, ih (by omega), hdiv, Function.iterate_succ_apply]
    · rw [bulkLoop_of_lt (by omega), Nat.div_eq_of_lt (by omega), Function.iterate_zero_apply]

/-- Every bound that covers the remaining length leaves `rem mod 48` bytes (R124). -/
theorem bulkLoop_rem {S : SecretTable} {B : Nat → Byte} {f : Nat} {l : Lanes} (h : l.rem.toNat ≤ 48 * f + 47) :
    (bulkLoop S B f l).rem.toNat = l.rem.toNat % 48 := by
  induction f generalizing l with
  | zero => rw [bulkLoop_of_lt (by omega), Nat.mod_eq_of_lt (by omega)]
  | succ f ih =>
    by_cases hr : 48 ≤ l.rem.toNat
    · have hrem := bulkRound_rem (S := S) (B := B) hr
      rw [bulkLoop_succ_of_le hr, ih (by omega), hrem, ← Nat.mod_eq_sub_mod hr]
    · rw [bulkLoop_of_lt (by omega), Nat.mod_eq_of_lt (by omega)]

/-- Settles O36: the loop's bound covers the length, and the bytes not left are the ones consumed (R38). -/
theorem bulkPhaseRunsAllRounds : Obligations.BulkPhaseRunsAllRounds := by
  intro S B acc n _
  have hbound : (longStart acc n).rem.toNat ≤ 48 * n.toNat + 47 := show n.toNat ≤ _ by omega
  have hrem : (bulkPhase S B (longStart acc n)).rem.toNat = n.toNat % 48 := bulkLoop_rem hbound
  obtain ⟨hsplit, -⟩ := bulkPhase_splits (S := S) (B := B) (longStart_splits acc n)
  exact ⟨congrArg mergeLanes (bulkLoop_eq_iterate hbound), hrem, by omega⟩

/-- Settles O37: each fold takes 16 bytes while more than 16 are left. -/
theorem foldRunsAtMostTwice : Obligations.FoldRunsAtMostTwice := by
  intro S B l h48
  by_cases h16 : l.rem.toNat ≤ 16
  · rw [foldPhase_of_rem_le h16, if_pos h16]
    exact ⟨rfl, h16, by omega⟩
  have hrem := foldRound_rem (S := S) (B := B) (Nat.lt_of_not_le h16)
  rw [foldPhase_round (by omega) h48, if_neg h16]
  by_cases h32 : l.rem.toNat ≤ 32
  · rw [foldPhase_of_rem_le (by omega), if_pos h32]
    exact ⟨rfl, by omega, by omega⟩
  · have hrem' := foldRound_rem (S := S) (B := B) (l := foldRound S B l) (by omega)
    rw [foldPhase_round (by omega) (by omega), foldPhase_of_rem_le (by omega), if_neg h32]
    exact ⟨rfl, by omega, by omega⟩

/-! ### Corner cases of the mixing steps -/

/-- A factor 0 makes both halves of the product 0 (R101). -/
theorem zero_mum (b : Word) : mum 0 b = (0, 0) :=
  Prod.ext (BitVec.eq_of_toNat_eq (by simp [mum_fst_toNat])) (BitVec.eq_of_toNat_eq (by simp [mum_snd_toNat]))

/-- An operand `fa` equal to `S[1]` makes the FIN1 product 0 (R133). -/
theorem fin1_entry_one (S : SecretTable) (acc fb : Word) : fin1 S acc S.s1 fb = (0, 0) :=
  (congrArg (mum · (fb ^^^ acc)) BitVec.xor_self).trans (zero_mum _)

/-- FIN2 of the product 0 (R134). -/
theorem fin2_zero (S : SecretTable) (n : Word) : fin2 S n 0 0 = mix (S.s0 ^^^ n) S.s1 := by
  simp only [fin2, SecretTable.entry, BitVec.ofNat_eq_ofNat, BitVec.zero_xor]

/-- Settles O38: a factor 0 makes the product 0, in INIT and in FIN1. -/
theorem mixingCorners : Obligations.MixingCorners := by
  intro S n acc fb seed
  have hinit (x : Word) : seedMix S x = x ^^^ mix (x ^^^ S.s0) S.s1 := rfl
  refine ⟨?_, ?_, hinit seed, fin1_entry_one S acc fb, ?_⟩
  · have hmix : mix (S.s0 ^^^ S.s0) S.s1 = 0 := (congrArg (mix · S.s1) BitVec.xor_self).trans (zero_mix S.s1)
    rw [hinit, hmix]
    exact BitVec.xor_zero
  · simp only [hinit, BitVec.ofNat_eq_ofNat, BitVec.zero_xor]
  · simp only [finish, fin1_entry_one, fin2_zero]

/-- The empty input has the operands 0, so FIN1 and FIN2 take the seed and the secret table alone (R128, R137). -/
theorem digest_zero_length (S : SecretTable) (B : Nat → Byte) (seed : Word) :
    digest S B 0 seed = mix ((mum S.s1 (seedMix S seed)).1 ^^^ S.s0) ((mum S.s1 (seedMix S seed)).2 ^^^ S.s1) := by
  have hshort : digest S B 0 seed = finish S 0 (seedMix S seed) (0, 0) := rfl
  rw [hshort]
  simp only [finish, fin1, fin2, SecretTable.entry, BitVec.ofNat_eq_ofNat, BitVec.zero_xor, BitVec.xor_zero]

/-- Settles O35: the formula for every seed and table; the value is a closed evaluation of it. -/
theorem emptyInputDigest : Obligations.EmptyInputDigest := by
  intro S B seed
  refine ⟨?_, digest_zero_length S B seed⟩
  rw [digest_zero_length]
  decide

end Sys2Proof.Machine
end

section
/-! PROOFS. An operation left to run (R179, R180): each of its engine steps counts down, reads its part of the buffer and keeps what is due,
so after the steps of R180 it has completed with the digest, or aborted on an unreadable byte. -/

namespace Sys2Proof.Machine

/-! ### The steps left count down (R180) -/

/-- Below 48 bytes, every 16 bytes before the last 1 to 16 are one fold (R127). -/
theorem foldTimes_eq {r : Nat} (h : r < 48) : (if r ≤ 16 then 0 else if r ≤ 32 then 1 else 2) = (r - 1) / 16 := by
  split_ifs <;> omega

/-- The folds of the long path, in integers (R127, R131). -/
theorem foldCount_eq {n : Nat} (h : 16 < n) : foldCount n = (n % 48 - 1) / 16 :=
  (if_neg (Nat.not_le_of_lt h)).trans (foldTimes_eq (Nat.mod_lt n (by decide)))

/-- The steps left in BULK, in integers. -/
theorem stepsLeft_of_bulk {e : Engine} (hp : e.phase = .bulk) (h : 48 ≤ e.rem.toNat) :
    e.stepsLeft = 3 + e.rem.toNat / 48 + (e.rem.toNat % 48 - 1) / 16 := by
  simp only [Engine.stepsLeft, hp, bulkCount, foldCount_eq (show 16 < e.rem.toNat by omega)]

/-- The steps left in FOLD16, in integers. -/
theorem stepsLeft_of_fold16 {e : Engine} (hp : e.phase = .fold16) (h16 : 16 < e.rem.toNat) (h48 : e.rem.toNat < 48) :
    e.stepsLeft = 3 + (e.rem.toNat - 1) / 16 := by
  simp only [Engine.stepsLeft, hp, ← foldTimes_eq h48, if_neg (Nat.not_le_of_lt h16)]

/-- With the lanes set below 48 bytes, the folds of the remaining length are left, and TAIL, FIN1 and FIN2 (R173, R174). -/
theorem stepsLeft_after_lanes (e : Engine) {l : Lanes} (h48 : l.rem.toNat < 48) :
    ({ e.setLanes l with phase := if 16 < l.rem.toNat then .fold16 else .tail } : Engine).stepsLeft =
      3 + (l.rem.toNat - 1) / 16 := by
  split
  case isTrue h16 => exact stepsLeft_of_fold16 rfl h16 h48
  case isFalse h16 => rw [Nat.div_eq_of_lt (by omega)]; rfl

/-- The INIT step leaves one step less than the operation has (R171). -/
theorem stepInit_stepsLeft (S : SecretTable) (e : Engine) : (stepInit S e).stepsLeft + 1 = stepCount e.lLen.toNat := by
  unfold stepInit stepCount
  simp only
  split
  case isTrue => rfl
  case isFalse h16 =>
    have h16 := Nat.lt_of_not_le h16
    rw [bulkCount, foldCount_eq h16]
    split
    case isTrue h48 =>
      rw [stepsLeft_of_bulk rfl h48]
      simp only [Engine.setLanes_rem, longStart]
      omega
    case isFalse h48 =>
      rw [stepsLeft_of_fold16 rfl h16 (Nat.lt_of_not_le h48)]
      simp only
      omega

/-- A BULK step takes one off the steps left (R173). -/
theorem stepBulk_stepsLeft (S : SecretTable) (B : Nat → Byte) {e : Engine} (hp : e.phase = .bulk)
    (h48 : 48 ≤ e.rem.toNat) : (stepBulk S B e).stepsLeft + 1 = e.stepsLeft := by
  have hrem : (bulkRound S B e.lanes).rem.toNat = e.rem.toNat - 48 := bulkRound_rem (l := e.lanes) h48
  have hleft := stepsLeft_of_bulk hp h48
  unfold stepBulk
  simp only
  split
  case isTrue hlt =>
    refine (congrArg (· + 1) (stepsLeft_after_lanes e (l := mergeLanes (bulkRound S B e.lanes)) hlt)).trans ?_
    simp only [mergeLanes]
    omega
  case isFalse hge =>
    have hafter := stepsLeft_of_bulk (e := e.setLanes (bulkRound S B e.lanes)) hp (Nat.le_of_not_lt hge)
    simp only [Engine.setLanes_rem] at hafter
    omega

/-- A FOLD16 step takes one off the steps left (R174). -/
theorem stepFold16_stepsLeft (S : SecretTable) (B : Nat → Byte) {e : Engine} (hp : e.phase = .fold16)
    (h16 : 16 < e.rem.toNat) (h48 : e.rem.toNat < 48) : (stepFold16 S B e).stepsLeft + 1 = e.stepsLeft := by
  have hrem : (foldRound S B e.lanes).rem.toNat = e.rem.toNat - 16 := foldRound_rem (l := e.lanes) h16
  have hleft := stepsLeft_of_fold16 hp h16 h48
  have hafter : (stepFold16 S B e).stepsLeft = 3 + ((foldRound S B e.lanes).rem.toNat - 1) / 16 :=
    stepsLeft_after_lanes e (by omega)
  omega

/-- An action of an operation in progress takes one off the steps left (R180). -/
theorem act_stepsLeft (S : SecretTable) (B : Nat → Byte) (v : Word) {e : Engine} (h : e.phaseInv)
    (hidle : e.phase ≠ .idle) : (e.act S B v).stepsLeft + 1 = e.stepsLeft := by
  unfold Engine.phaseInv at h
  unfold Engine.act
  cases hp : e.phase <;> simp only [hp] at h ⊢
  case idle => exact absurd hp hidle
  case init => rw [stepInit_stepsLeft, Engine.stepsLeft, hp]
  case short => simp only [Engine.stepsLeft, hp, stepShort]
  case bulk => exact stepBulk_stepsLeft S B hp h.1
  case fold16 =>
    obtain ⟨-, h16, h48, -⟩ := h
    exact stepFold16_stepsLeft S B hp h16 h48
  case tail => simp only [Engine.stepsLeft, hp, stepTail]
  case fin1 => simp only [Engine.stepsLeft, hp, stepFin1]
  case fin2 => simp only [Engine.stepsLeft, hp, stepFin2]

/-! ### The steps read every byte of the buffer (R178) -/

/-- How far into its buffer an operation in progress has read every byte. -/
def Engine.bytesRead (e : Engine) : Nat :=
  match e.phase with
  | .idle | .init | .short => 0
  | .bulk | .fold16 | .tail => e.off.toNat
  | .fin1 | .fin2 => e.lLen.toNat

/-- The SHORT step uses every byte of its buffer (R128 to R130). -/
theorem mem_shortNeeds {n o : Nat} (hn : n ≤ 16) (ho : o < n) : o ∈ shortNeeds n := by
  unfold shortNeeds
  split
  case isTrue => omega
  case isFalse =>
    split
    case isTrue =>
      simp only [List.mem_cons, List.not_mem_nil, or_false, Nat.shiftRight_one]
      omega
    case isFalse =>
      simp only [List.mem_append, mem_offsets, pairOffset_eq]
      omega

/-- With the lanes set in a phase of the long path, the bytes read are those before the offset. -/
theorem bytesRead_after_lanes (e : Engine) (l : Lanes) :
    ({ e.setLanes l with phase := if 16 < l.rem.toNat then .fold16 else .tail } : Engine).bytesRead = l.off.toNat := by
  by_cases h : 16 < l.rem.toNat <;> simp [Engine.bytesRead, h]

/-- The INIT step reads nothing (R171). -/
theorem stepInit_bytesRead (S : SecretTable) (e : Engine) : (stepInit S e).bytesRead = 0 := by
  unfold stepInit
  simp only
  split
  case isTrue => rfl
  case isFalse => split <;> rfl

/-- A BULK step reads the 48 bytes from its offset (R173). -/
theorem stepBulk_bytesRead (S : SecretTable) (B : Nat → Byte) {e : Engine} (hp : e.phase = .bulk) (h48 : 48 ≤ e.rem.toNat)
    (hsplit : e.split) : (stepBulk S B e).bytesRead = e.off.toNat + 48 := by
  obtain ⟨-, -, hoff⟩ := bulkRound_splits (S := S) (B := B) hsplit.lanes h48
  rw [← show (bulkRound S B e.lanes).off.toNat = e.off.toNat + 48 from hoff]
  unfold stepBulk
  simp only
  split
  case isTrue => exact bytesRead_after_lanes e (mergeLanes (bulkRound S B e.lanes))
  case isFalse => simp only [Engine.bytesRead, Engine.setLanes_phase, hp, Engine.setLanes_off]

/-- A FOLD16 step reads the 16 bytes from its offset (R174). -/
theorem stepFold16_bytesRead (S : SecretTable) (B : Nat → Byte) {e : Engine} (h16 : 16 < e.rem.toNat) (hsplit : e.split) :
    (stepFold16 S B e).bytesRead = e.off.toNat + 16 := by
  obtain ⟨-, -, hoff⟩ := foldRound_splits (S := S) (B := B) hsplit.lanes h16
  exact (bytesRead_after_lanes e (foldRound S B e.lanes)).trans hoff

/-- What an action adds to the bytes read, it uses. -/
theorem mem_needs_of_act_bytesRead (S : SecretTable) (B : Nat → Byte) (v : Word) {e : Engine} (h : e.phaseInv) {o : Nat}
    (ho : o < (e.act S B v).bytesRead) : o < e.bytesRead ∨ o ∈ e.needs := by
  unfold Engine.phaseInv at h
  unfold Engine.act at ho
  unfold Engine.bytesRead Engine.needs
  cases hp : e.phase <;> simp only [hp, mem_offsets] at h ho ⊢
  case idle => simp [Engine.bytesRead, hp] at ho
  case init => simp [stepInit_bytesRead] at ho
  case short => exact .inr (mem_shortNeeds h ho)
  case bulk =>
    obtain ⟨h48, hsplit⟩ := h
    rw [stepBulk_bytesRead S B hp h48 hsplit] at ho
    omega
  case fold16 =>
    obtain ⟨-, h16, -, hsplit⟩ := h
    rw [stepFold16_bytesRead S B h16 hsplit] at ho
    omega
  case tail =>
    obtain ⟨-, hrem, hsplit⟩ := h
    have hlen : e.off.toNat + e.rem.toNat = e.lLen.toNat := hsplit
    replace ho : o < e.lLen.toNat := ho
    omega
  case fin1 => exact .inl ho
  case fin2 => exact absurd ho (Nat.not_lt_zero o)

/-- The reads of the next step are answered exactly when no byte it uses is unreadable (R170). -/
theorem readsOk_iff {c : Config} {e : Engine} :
    e.readsOk c = true ↔ ∀ o ∈ e.needs, c.memOk (e.lSrc.toNat + o) = true := List.all_eq_true

/-- A good operation whose next reads are not all answered has an unreadable byte in its buffer (R136). -/
theorem not_readable_of_readsOk_false {c : Config} {e : Engine} (h : e.phaseInv) (hn : e.readsOk c = false) :
    ¬e.readable c := by
  intro hr
  rw [readsOk_iff.2 fun o ho => hr o (h.needs_lt ho)] at hn
  cases hn

/-! ### Completion on track -/

/-- What an operation on track is due at FIN2 is the digest of its buffer (R121, R177). -/
theorem Engine.OnTrack.fin2_eq_digest {S : SecretTable} {m : Memory} {e : Engine} (h : e.OnTrack S m)
    (hp : e.phase = .fin2) (hr : e.raced = false) : fin2 S e.lLen e.fa e.fb = digest S (e.bytes m) e.lLen e.lSeed := by
  rw [← h (by simp [hp]) hr, Engine.due, hp]

/-- Settles O54: FIN2 stores what the operation was due. -/
theorem completionGivesDigest : Obligations.CompletionGivesDigest := by
  intro s k e rest _ htrack hs hk hp hr
  obtain ⟨v, hstep, hv⟩ := fin2StepCompletes s k e rest hs hk hp
  have hdigest := (htrack e (List.mem_of_getElem? hk)).fin2_eq_digest hp hr
  exact ⟨_, _, hstep, State.setEngine_get hk _, (hv hr).trans hdigest, by simp [Engine.statusWord, flagWord]⟩

/-! ### From the INIT step to the end -/

/-- What the host and the platform are to find after an operation that started as `e` was left to run (R177 to R179). -/
structure Engine.Ended (c : Config) (m : Memory) (e f : Engine) : Prop where
  idle : f.phase = .idle
  regs : f.seed = e.seed ∧ f.src = e.src ∧ f.len = e.len
  outcome :
    (e.readable c ∧ f.statusWord = 0x2 ∧ (e.raced = false → f.result = digest c.secret (e.bytes m) e.lLen e.lSeed)) ∨
      (¬e.readable c ∧ f.statusWord = 0x206 ∧ f.result = e.result)

/-- The operation that started as `e` is in progress as `f`: it is good and on track, it has its latched operands, and every byte it has
read so far is readable. -/
structure Engine.Continues (c : Config) (m : Memory) (e f : Engine) : Prop where
  active  : f.phase ≠ .idle
  inv     : f.Inv c
  onTrack : f.OnTrack c.secret m
  read    : ∀ o < f.bytesRead, c.memOk (f.lSrc.toNat + o) = true
  regs    : f.seed = e.seed ∧ f.src = e.src ∧ f.len = e.len ∧ f.result = e.result
  latched : f.lSeed = e.lSeed ∧ f.lSrc = e.lSrc ∧ f.lLen = e.lLen ∧ f.raced = e.raced

/-- A good instance about to take its INIT step is an operation in progress: it is due the digest and has read nothing. -/
theorem Engine.Continues.of_init {c : Config} {e : Engine} (h : e.Inv c) (hp : e.phase = .init) (m : Memory) :
    Engine.Continues c m e e where
  active := by simp [hp]
  inv := h
  onTrack := fun _ _ => by rw [Engine.due, hp]
  read := fun o ho => by simp [Engine.bytesRead, hp] at ho
  regs := ⟨rfl, rfl, rfl, rfl⟩
  latched := ⟨rfl, rfl, rfl, rfl⟩

/-- An operation in progress has a step left. -/
theorem Engine.Continues.stepsLeft_pos {c : Config} {m : Memory} {e f : Engine} (h : Engine.Continues c m e f) :
    0 < f.stepsLeft := by
  rw [← act_stepsLeft c.secret (f.bytes m) 0 h.inv.phase_regs h.active]
  exact Nat.succ_pos _

/-- The buffer is the one that was latched. -/
theorem Engine.Continues.readable_iff {c : Config} {m : Memory} {e f : Engine} (h : Engine.Continues c m e f) :
    f.readable c ↔ e.readable c := by
  obtain ⟨-, hsrc, hlen, -⟩ := h.latched
  simp only [Engine.readable, hsrc, hlen]

/-- The action of FIN2 completes the operation: every byte has been read (R177). -/
theorem Engine.Continues.ended_fin2 {c : Config} {m : Memory} {e f : Engine} (h : Engine.Continues c m e f)
    (hp : f.phase = .fin2) (v : Word) : Engine.Ended c m e (stepFin2 c.secret v f) := by
  obtain ⟨hseed, hsrc, hlen, -⟩ := h.regs
  obtain ⟨hlSeed, hlSrc, hlLen, hraced⟩ := h.latched
  refine ⟨rfl, ⟨hseed, hsrc, hlen⟩, .inl ⟨h.readable_iff.1 fun o ho => h.read o ?_, stepFin2_statusWord .., fun hr => ?_⟩⟩
  · rwa [Engine.bytesRead, hp]
  · rw [← hraced] at hr
    have hdigest := h.onTrack.fin2_eq_digest hp hr
    rw [bytes_congr hlSrc, hlLen, hlSeed] at hdigest
    rw [← hdigest]
    simp [stepFin2, hr, hlLen]

/-- Any other action goes on, one step further. -/
theorem Engine.Continues.act {c : Config} {m : Memory} {e f : Engine} (h : Engine.Continues c m e f)
    (hok : f.readsOk c = true) (hfin2 : f.phase ≠ .fin2) (v : Word) :
    Engine.Continues c m e (f.act c.secret (f.bytes m) v) := by
  have hregs := h.inv.phase_regs
  obtain ⟨-, -, -, -, kresult, kseed, ksrc, klen, klSeed, klSrc, klLen, kraced⟩ := act_keeps c.secret (f.bytes m) v f hfin2
  obtain ⟨hactive, -⟩ := act_phaseInv c.secret (f.bytes m) v hregs h.active hfin2
  refine ⟨hactive, h.inv.act h.active _ _ v, h.onTrack.act hregs h.active v, fun o ho => ?_, ?_, ?_⟩
  · rw [klSrc]
    exact (mem_needs_of_act_bytesRead _ _ v hregs ho).elim (h.read o) (readsOk_iff.1 hok o)
  · rw [kseed, ksrc, klen, kresult]
    exact h.regs
  · rw [klSeed, klSrc, klLen, kraced]
    exact h.latched

/-- The abort ends the operation: an unreadable byte of its buffer was to be used (R178). -/
theorem Engine.Continues.ended_abort {c : Config} {m : Memory} {e f : Engine} (h : Engine.Continues c m e f)
    (hn : f.readsOk c = false) (n : Nat) : Engine.Ended c m e (f.abort n) := by
  obtain ⟨hseed, hsrc, hlen, hresult⟩ := h.regs
  have hunreadable := mt h.readable_iff.2 (not_readable_of_readsOk_false h.inv.phase_regs hn)
  exact ⟨rfl, ⟨hseed, hsrc, hlen⟩, .inr ⟨hunreadable, by simp [Engine.statusWord, flagWord, ErrorCause.code], hresult⟩⟩

/-- An engine step of an operation in progress goes on with one step less to go, or ends the operation (R170). -/
theorem Engine.Continues.advance {c : Config} {m : Memory} {e f : Engine} (h : Engine.Continues c m e f) (n : Nat) :
    (Engine.Continues c m e (f.advance c m n) ∧ (f.advance c m n).stepsLeft + 1 = f.stepsLeft) ∨
      Engine.Ended c m e (f.advance c m n) := by
  obtain ⟨hok, hact⟩ | ⟨hn, habort⟩ := advance_cases c m n f
  · rw [hact]
    by_cases hfin2 : f.phase = .fin2
    · simp only [Engine.act, hfin2]
      exact .inr (h.ended_fin2 hfin2 _)
    · exact .inl ⟨h.act hok hfin2 _, act_stepsLeft _ _ _ h.inv.phase_regs h.active⟩
  · rw [habort]
    exact .inr (h.ended_abort hn n)

/-- A run takes its first step and goes on. -/
theorem run_succ_of_step {s t : State} (h : step s = .next t) (n : Nat) : run (n + 1) s = run n t := by
  have hcore : Sys2Proof.core.step s = .next t := h
  simp only [run, Host.Core.run, hcore]
  rfl

/-- An engine step takes nothing from the schedule. -/
theorem engineMove_sched (k : Nat) (s : State) : (engineMove k s).sched = s.sched := by
  obtain h | ⟨f, h⟩ := engineMove_eq k s
  · rw [h]
  · rw [h]
    rfl

/-- A step that the schedule gives to the engine of instance `k` advances it where it is in progress, and changes no other instance, no
parameter and no memory (R170, R213). -/
theorem step_engine_scheduled {s : State} {k : Nat} {e : Engine} {rest : List Agent} (hs : s.sched = .engine k :: rest)
    (hk : s.engines[k]? = some e) :
    ∃ t : State, step s = .next t ∧ t.sched = rest ∧ t.mem = s.mem ∧ t.cfg = s.cfg ∧
      t.engines[k]? = some (if e.phase = .idle then e else e.advance s.cfg s.mem s.free) ∧
      ∀ j ≠ k, t.engines[j]? = s.engines[j]? := by
  have hstep : step s = .next (engineMove k { s with sched := rest }) := step_sched hs
  obtain ⟨hmem, -, hcfg, hothers⟩ := move_frame (s := { s with sched := rest }) (.inl rfl) rfl
  refine ⟨_, hstep, engineMove_sched .., hmem, hcfg, ?_, hothers⟩
  rw [engineMove_get, hk, Option.map_some]

/-- Left to run for as many steps as it has left, an operation ends, and nothing but its instance changes (R180). -/
theorem run_engine_ends {n k : Nat} {rest : List Agent} {c : Config} {m : Memory} {e f : Engine} {s : State}
    (hc : s.cfg = c) (hm : s.mem = m) (hk : s.engines[k]? = some f) (hs : s.sched = List.replicate n (.engine k) ++ rest)
    (h : (Engine.Continues c m e f ∧ f.stepsLeft ≤ n) ∨ Engine.Ended c m e f) :
    ∃ (t : State) (g : Engine), run n s = .next t ∧ t.sched = rest ∧ t.mem = m ∧ t.engines[k]? = some g ∧
      (∀ j ≠ k, t.engines[j]? = s.engines[j]?) ∧ Engine.Ended c m e g := by
  induction n generalizing s f with
  | zero =>
    obtain ⟨hcont, hleft⟩ | hend := h
    · exact absurd hcont.stepsLeft_pos (Nat.not_lt_of_le hleft)
    · exact ⟨s, f, rfl, hs, hm, hk, fun _ _ => rfl, hend⟩
  | succ n ih =>
    obtain ⟨u, hstep, husched, humem, hucfg, huk, huothers⟩ := step_engine_scheduled hs hk
    rw [hc, hm] at huk
    obtain ⟨t, g, hrun, htsched, htmem, htk, htothers, hend⟩ :=
      ih (hucfg.trans hc) (humem.trans hm) huk husched (by
        obtain ⟨hcont, hleft⟩ | hend := h
        · rw [if_neg hcont.active]
          exact (hcont.advance s.free).imp_left fun ⟨hnext, hcount⟩ => ⟨hnext, by omega⟩
        · rw [if_pos hend.idle]
          exact .inr hend)
    exact ⟨t, g, (run_succ_of_step hstep n).trans hrun, htsched, htmem, htk,
      fun j hj => (htothers j hj).trans (huothers j hj), hend⟩

/-- After the steps of R180 an operation about to take its INIT step has ended. -/
theorem run_stepCount_ends {s : State} {k : Nat} {e : Engine} {rest : List Agent} (h : s.Inv) (hk : s.engines[k]? = some e)
    (hp : e.phase = .init) (hs : s.sched = List.replicate (stepCount e.lLen.toNat) (.engine k) ++ rest) :
    ∃ (t : State) (g : Engine), run (stepCount e.lLen.toNat) s = .next t ∧ t.sched = rest ∧ t.mem = s.mem ∧
      t.engines[k]? = some g ∧ (∀ j ≠ k, t.engines[j]? = s.engines[j]?) ∧ Engine.Ended s.cfg s.mem e g := by
  have hleft : e.stepsLeft = stepCount e.lLen.toNat := by rw [Engine.stepsLeft, hp]
  exact run_engine_ends rfl rfl hk hs
    (.inl ⟨.of_init (h.engine_inv e (List.mem_of_getElem? hk)) hp s.mem, hleft.le⟩)

/-- Settles O55: with a readable buffer the operation cannot have ended by the abort. -/
theorem operationComputesDigest : Obligations.OperationComputesDigest := by
  intro s k e rest h hk hp hr hread hs
  obtain ⟨t, f, hrun, hsched, hmem, hf, hothers, hend⟩ := run_stepCount_ends h hk hp hs
  obtain ⟨hseed, hsrc, hlen⟩ := hend.regs
  obtain ⟨-, hstatus, hdigest⟩ | ⟨hunreadable, -, -⟩ := hend.outcome
  · exact ⟨t, f, hrun, hsched, hmem, hf, hend.idle, hstatus, hdigest hr, hseed, hsrc, hlen, hothers⟩
  · exact absurd hread hunreadable

/-- Settles O56: the two ways to end differ in `STATUS` and in whether the buffer is readable. -/
theorem abortsIffBufferUnreadable : Obligations.AbortsIffBufferUnreadable := by
  intro s k e rest h hk hp hs
  obtain ⟨t, f, hrun, -, -, hf, -, hend⟩ := run_stepCount_ends h hk hp hs
  refine ⟨t, f, hrun, hf, hend.idle, ?_⟩
  obtain ⟨hread, hstatus, -⟩ | ⟨hunreadable, hstatus, hresult⟩ := hend.outcome
  · simp [hstatus, hread]
  · simp [hstatus, hunreadable, hresult]

end Sys2Proof.Machine
end

section
/-! PROOFS. The register accesses and the commands of an instance, one by one (R151 to R166): the value a read returns, the register a write
stores, and what a command does while idle and while busy. -/

namespace Sys2Proof.Machine

/-! ### Reads (R151 to R157) -/

/-- The reads of `CMD` and of the reserved offsets all have one meaning: they return 0 (R151, R157). -/
theorem exec_eq_zeroRead {i : Instr} (h : i ∈ Instr.rdCmd :: reservedReads) : exec i = readReg (fun _ => 0) := by
  have hmeanings : (Instr.rdCmd :: reservedReads).map exec = List.replicate 27 (readReg fun _ => 0) := rfl
  exact List.eq_of_mem_replicate (hmeanings ▸ List.mem_map_of_mem h)

/-- Settles O11: the descriptors are rows of the table of R75, and their one meaning is the read of 0. -/
theorem zeroRegistersReadZero : Obligations.ZeroRegistersReadZero := by
  obtain ⟨-, -, hreserved, -⟩ := accessDescriptorTable
  refine ⟨rfl, hreserved 0, rfl, fun s e he i hi => ?_⟩
  rw [exec_eq_zeroRead hi, readReg_some he]
  rfl

/-- The three flags of `STATUS` (R23, R152). -/
theorem statusWord_flags (e : Engine) :
    e.statusWord.getLsbD 0 = e.busy ∧ e.statusWord.getLsbD 1 = e.done ∧ e.statusWord.getLsbD 2 = e.err := by
  simp [Engine.statusWord, flagWord]

/-- Above the three flags, `STATUS` holds `ERRCODE` from bit 8 on (R23, R152). -/
theorem statusWord_getLsbD_of_three_le (e : Engine) {i : Nat} (h3 : 3 ≤ i) (h64 : i < 64) :
    e.statusWord.getLsbD i = (!decide (i < 8) && e.errCode.getLsbD (i - 8)) := by
  have h0 : i ≠ 0 := by omega
  have h1 : i - 1 ≠ 0 := by omega
  have h2 : i - 2 ≠ 0 := by omega
  simp [Engine.statusWord, flagWord, h64, h0, h1, h2]

/-- Settles O12: the read returns the word of the flags, and its bits from 3 on are `ERRCODE` at bit 8 and 0 elsewhere. -/
theorem statusReadReturnsFlags : Obligations.StatusReadReturnsFlags := by
  refine ⟨rfl, fun s e he => ⟨e.statusWord, readReg_some he _, rfl, ?_⟩⟩
  obtain ⟨hbusy, hdone, herr⟩ := statusWord_flags e
  refine ⟨hbusy, hdone, herr, ?_, ?_, ?_⟩
  all_goals
    ext i hi
    rw [BitVec.getElem_extractLsb', statusWord_getLsbD_of_three_le e (by omega) (by omega)]
  · simp [hi]
  · simp [show 3 + i < 8 by omega]
  · have hcode : e.errCode.getLsbD (16 + i - 8) = false := BitVec.getLsbD_of_ge _ _ (by omega)
    simp [hcode]

/-- Settles O13: each read returns its register. -/
theorem operandReadsReturnRegisters : Obligations.OperandReadsReturnRegisters :=
  ⟨rfl, rfl, rfl, rfl, fun _ _ he => ⟨readReg_some he _, readReg_some he _, readReg_some he _, readReg_some he _⟩⟩

/-! ### Writes of the registers other than `CMD` (R158 to R160, R166) -/

/-- Settles O14: each write replaces its register in the instance addressed. -/
theorem operandWritesStoreAllBits : Obligations.OperandWritesStoreAllBits := fun _ _ _ he =>
  ⟨rfl, rfl, rfl, writeReg_some he _, writeReg_some he _, writeReg_some he _⟩

/-- The writes of `STATUS`, `RESULT` and the reserved offsets all have one meaning: they are ignored (R166). -/
theorem exec_eq_ignoreWrite {i : Instr} {v : Word} (h : i ∈ Instr.wrStatus v :: Instr.wrResult v :: reservedWrites v) :
    exec i = ignoreWrite v := by
  have hmeanings :
      (Instr.wrStatus v :: Instr.wrResult v :: reservedWrites v).map exec = List.replicate 28 (ignoreWrite v) := rfl
  exact List.eq_of_mem_replicate (hmeanings ▸ List.mem_map_of_mem h)

/-- Settles O15: the descriptors are rows of the table of R75, and a write that is ignored keeps the instance. -/
theorem readOnlyWritesIgnored : Obligations.ReadOnlyWritesIgnored := by
  intro s e v he
  obtain ⟨-, -, -, hreserved, -⟩ := accessDescriptorTable
  refine ⟨rfl, rfl, hreserved v, rfl, fun i hi => ?_⟩
  rw [exec_eq_ignoreWrite hi]
  exact writeReg_id he rfl

/-! ### Commands (R161 to R165) -/

/-- Settles O17: each of these instructions is a command, and a command given while busy is ignored. -/
theorem commandWhileBusyIgnored : Obligations.CommandWhileBusyIgnored := by
  intro s e w he hb
  simp only [commandsOf, List.forall_mem_cons]
  exact ⟨command_busy he hb _, command_busy he hb _, command_busy he hb _, command_busy he hb _, List.forall_mem_nil _⟩

/-- Settles O18: the instance is kept whether it is busy or idle. -/
theorem nopChangesNothing : Obligations.NopChangesNothing := ⟨rfl, fun _ _ he => writeReg_id he (ite_self _)⟩

/-- Settles O19: the premise is the range check. -/
theorem digestAcceptedStartsOperation : Obligations.DigestAcceptedStartsOperation :=
  ⟨rfl, fun _ _ he hb hr => ⟨_, execDigest_starts he hb (rangeOk_iff.2 hr)⟩⟩

/-- A DIGEST while idle whose buffer does not fit into the address space reports the error RANGE (R164). -/
theorem execDigest_refused {s : State} {e : Engine} (he : s.engine? = some e) (hb : e.busy = false) (hlen : e.len ≠ 0)
    (hr : 2 ^ s.cfg.addrW < e.src.toNat + e.len.toNat) :
    exec .digest s = .next (s.setEngine s.target (e.raiseError .range)) := by
  have hrange : ¬rangeOk s.cfg e.src e.len = true :=
    mt rangeOk_iff.1 (not_or.2 ⟨hlen, Nat.not_le_of_lt hr⟩)
  rw [exec, execDigest, command_idle he hb, Engine.digestIdle, if_neg hrange]

/-- Settles O20: the premises are the failure of the range check. -/
theorem digestOutOfRangeRefused : Obligations.DigestOutOfRangeRefused := by
  refine ⟨rfl, fun s e he hb hlen hr => execDigest_refused he hb (fun h0 => ?_) hr⟩
  simp [h0] at hlen

/-- An illegal command while idle reports the error ILLEGAL_CMD (R165). -/
theorem execIllegal_idle {s : State} {e : Engine} (he : s.engine? = some e) (hb : e.busy = false) (w : Word) :
    exec (.illegal w) s = .next (s.setEngine s.target (e.raiseError .illegalCmd)) := command_idle he hb _

/-- A command word other than 0 and 1 decodes to an illegal command (R71). -/
theorem decodeCommand_of_illegal {w : Word} (h0 : w ≠ 0) (h1 : w ≠ 1) : decodeCommand w = .illegal w :=
  (if_neg h0).trans (if_neg h1)

/-- Settles O21: the word takes no part in the effect. -/
theorem illegalCommandReported : Obligations.IllegalCommandReported :=
  ⟨fun _ => decodeCommand_of_illegal, fun _ _ w he hb => execIllegal_idle he hb w⟩

/-- A write of a word to `CMD` is the command the word decodes to (R161). -/
theorem exec_wrCmd (w : Word) (s : State) : exec (.wrCmd w) s = exec (decodeCommand w) s := by
  rw [exec, execWrCmd]
  by_cases h0 : w = 0
  · rw [h0]; rfl
  · by_cases h1 : w = 1
    · rw [h1]; rfl
    · rw [decodeCommand_of_illegal h0 h1]; rfl

/-- Settles O22: the write is the command its word decodes to, so each clause is the rule of that command. -/
theorem cmdWriteDispatches : Obligations.CmdWriteDispatches := by
  intro s e w he
  refine ⟨rfl, exec_wrCmd w s, ⟨_, writeReg_some he _⟩, fun hb => command_busy he hb _, ?_⟩
  rw [exec_wrCmd]
  refine ⟨?_, ?_, ?_, ?_⟩
  · rintro rfl
    exact nopChangesNothing.2 s e he
  · rintro hb rfl hlen hr
    exact execDigest_refused he hb hlen hr
  · rintro hb rfl hr
    exact ⟨_, execDigest_starts he hb (rangeOk_iff.2 hr)⟩
  · intro hb h0 h1
    rw [decodeCommand_of_illegal h0 h1]
    exact execIllegal_idle he hb w

end Sys2Proof.Machine
end

section
/-! PROOFS. The engine steps of an operation, phase by phase (R171 to R176), the abort (R178), and the count of steps left (R180). -/

namespace Sys2Proof.Machine

/-! ### One step with its reads answered (R170 to R176) -/

/-- The engine that moves next takes the action of its phase where all its reads are answered (R170). -/
theorem step_engine_act {s : State} {k : Nat} {e : Engine} {rest : List Agent} (hs : s.movesNext (.engine k) rest)
    (hk : s.engines[k]? = some e) (hp : e.phase ≠ .idle) (hreads : e.readsOk s.cfg = true) :
    step s = .next { s with
      sched := rest
      engines := s.engines.set k (e.act s.cfg.secret (e.bytes s.mem) (Config.freeWord s.free))
      free := s.free + drawsPerMove } := by
  rw [step_engine hs hk hp, Engine.advance, if_pos hreads]

/-- The INIT step writes `ACC0` with the mixed seed (R171). -/
theorem stepInit_acc0 (S : SecretTable) (e : Engine) : (stepInit S e).acc0 = seedMix S e.lSeed := by
  unfold stepInit
  simp only
  split_ifs <;> rfl

/-- Settles O39: INIT uses no byte, and the three bands are the three branches of its action. -/
theorem initStepChoosesBand : Obligations.InitStepChoosesBand := by
  intro s k e rest hs hk hp
  have hreads : e.readsOk s.cfg = true := readsOk_of_no_needs (by simp [Engine.needs, hp])
  refine ⟨stepInit s.cfg.secret e, ?_, stepInit_acc0 .., fun hshort => ?_, fun h16 h48 => ?_, fun h48 => ?_⟩
  · rw [step_engine_act hs hk (by simp [hp]) hreads, Engine.act, hp]
  all_goals rw [stepInit_acc0]
  · exact if_pos hshort
  · exact (if_neg (Nat.not_le_of_lt h16)).trans (if_neg (Nat.not_le_of_lt h48))
  · exact (if_neg (by omega)).trans (if_pos h48)

/-- The three values of `q` on the bands 4 to 7, 8 to 15 and 16 (R130). -/
theorem pairOffset_of_le {n : Nat} (h : n ≤ 16) : pairOffset n = if n < 8 then 0 else if n < 16 then 4 else 8 := by
  rw [pairOffset_eq]
  split_ifs <;> omega

/-- Settles O40: a buffer of length 0 uses no byte, and the three selections are the three branches of the operands. -/
theorem shortStepSelectsOperands : Obligations.ShortStepSelectsOperands := by
  intro s k e rest hs hk hp hok hle
  have hneeds : e.lLen.toNat = 0 → e.needs = [] := fun h0 => by simp [Engine.needs, hp, h0, shortNeeds]
  have hreads : e.readsOk s.cfg = true := hok.elim (fun h0 => readsOk_of_no_needs (hneeds h0)) id
  refine ⟨stepShort (e.bytes s.mem) e, ?_, rfl, fun h0 => ⟨hneeds h0, ?_⟩, fun h1 h3 => ?_, fun h4 => ?_⟩
  · rw [step_engine_act hs hk (by simp [hp]) hreads, Engine.act, hp]
  all_goals simp only [stepShort, shortOperands]
  · simp [h0]
  · simp [Nat.ne_of_gt h1, h3]
  · rw [if_neg (by omega), if_neg (by omega), r4Pair, pairOffset_of_le hle]
    exact ⟨rfl, rfl⟩

/-- The BULK step, register by register (R173). -/
theorem stepBulk_eq (S : SecretTable) (B : Nat → Byte) {e : Engine} (hp : e.phase = .bulk) :
    let l := bulkRound S B e.lanes
    stepBulk S B e = { e with
      acc0 := if l.rem.toNat < 48 then l.acc0 ^^^ l.acc1 ^^^ l.acc2 else l.acc0
      acc1 := l.acc1
      acc2 := l.acc2
      off := l.off
      rem := l.rem
      phase := if 48 ≤ l.rem.toNat then .bulk else if 16 < l.rem.toNat then .fold16 else .tail } := by
  intro l
  unfold stepBulk
  by_cases hlast : l.rem.toNat < 48
  · simp only [l, hlast, if_true, if_neg (Nat.not_le_of_lt hlast)]
    rfl
  · simp only [l, hlast, if_false, if_pos (Nat.le_of_not_lt hlast), ← hp]
    rfl

/-- Settles O41: the action of BULK is one round, and the merge where it is the last. -/
theorem bulkStepRunsOneRound : Obligations.BulkStepRunsOneRound := by
  intro s k e rest hs hk hp hreads _
  have hact := stepBulk_eq s.cfg.secret (e.bytes s.mem) hp
  rw [step_engine_act hs hk (by simp [hp]) hreads]
  simp only [Engine.act, hp, hact]
  rfl

/-- Settles O42: the action of FOLD16 is one fold. -/
theorem foldStepFoldsSixteenBytes : Obligations.FoldStepFoldsSixteenBytes := by
  intro s k e rest hs hk hp hreads _
  rw [step_engine_act hs hk (by simp [hp]) hreads, Engine.act, hp]
  rfl

/-- Settles O43: the action of TAIL takes the operands of the long path. -/
theorem tailStepTakesLastBytes : Obligations.TailStepTakesLastBytes := by
  intro s k e rest hs hk hp hreads _
  rw [step_engine_act hs hk (by simp [hp]) hreads, Engine.act, hp]
  rfl

/-- Settles O44: FIN1 uses no byte, and its action is the unfolded product. -/
theorem fin1StepKeepsProduct : Obligations.Fin1StepKeepsProduct := by
  intro s k e rest hs hk hp
  have hreads : e.readsOk s.cfg = true := readsOk_of_no_needs (by simp [Engine.needs, hp])
  rw [step_engine_act hs hk (by simp [hp]) hreads, Engine.act, hp]
  rfl

/-! ### The abort (R178) -/

/-- Settles O46: one unreadable byte among those the step uses makes it the abort. -/
theorem busErrorAborts : Obligations.BusErrorAborts := by
  intro s k o e rest hs hk ho hbad
  have hreads : ¬e.readsOk s.cfg = true := fun h => by
    rw [readsOk_iff.1 h o ho] at hbad
    cases hbad
  have hstep := step_engine hs hk (phase_ne_idle_of_mem_needs ho)
  rw [Engine.advance, if_neg hreads] at hstep
  exact ⟨_, _, _, _, _, _, _, _, _, _, hstep⟩

/-! ### The steps left (R180) -/

/-- Settles O52: the action of the phase counts down, and only that of FIN2 ends in IDLE; the abort leaves no step. -/
theorem engineStepsCountDown : Obligations.EngineStepsCountDown := by
  intro s k e f hk hinv hidle hf
  rw [engineMove_get, hk, Option.map_some, if_neg hidle] at hf
  cases hf
  obtain ⟨-, hact⟩ | ⟨-, habort⟩ := advance_cases s.cfg s.mem s.free e
  · rw [hact]
    refine .inl ⟨act_stepsLeft _ _ _ hinv.phase_regs hidle, ?_⟩
    by_cases hfin2 : e.phase = .fin2
    · exact iff_of_true (by simp only [Engine.act, hfin2, stepFin2]) hfin2
    · exact iff_of_false (act_phaseInv _ _ _ hinv.phase_regs hidle hfin2).1 hfin2
  · rw [habort]
    exact .inr ⟨rfl, rfl, rfl⟩

end Sys2Proof.Machine
end

section
/-! PROOFS. The reset of an instance as a move of the schedule (R220, R221). -/

namespace Sys2Proof.Machine

/-- The reset of instance `k`, next in the schedule, replaces that instance and nothing else (R220, R221). -/
theorem step_reset {s : State} {k : Nat} {rest : List Agent} (hs : s.movesNext (.reset k) rest) :
    step s = .next { s with
      sched := rest
      engines := s.engines.set k (Engine.afterReset s.free)
      free := s.free + drawsPerMove } := by
  rw [step_sched hs]
  rfl

/-- The internal registers are no part of `STATUS` (R152). -/
@[simp] theorem Engine.drawInternals_statusWord (e : Engine) (n : Nat) : (e.drawInternals n).statusWord = e.statusWord := rfl

/-- After its reset an instance reads `STATUS` as 0 (R220). -/
theorem Engine.afterReset_statusWord (n : Nat) : (Engine.afterReset n).statusWord = 0 := by
  rw [Engine.afterReset, Engine.drawInternals_statusWord]
  decide

/-- Settles O47: the new instance is the reset one with its internal registers drawn, whatever it was doing before. -/
theorem resetEventClearsInstance : Obligations.ResetEventClearsInstance := by
  intro s k _ _ hs _
  exact ⟨Engine.afterReset s.free, step_reset hs, Engine.afterReset_statusWord _, rfl, rfl, rfl, rfl, rfl⟩

end Sys2Proof.Machine
end
